-- ==== Sys2Proof/Word.lean ====
section
/-! DEFINITION. The word and byte of the machine (R9, R30, R49) and the two text types of its input (R3, R101). -/

namespace Sys2Proof

/-- A register, flag-test or table value: 16 bits (R30). -/
abbrev Word := BitVec 16

/-- A cell of data memory, or a device register: 8 bits (R47, R48, R49). -/
abbrev Byte := BitVec 8

/-- A token: a run of non-whitespace characters (R101). Tokens are compared exactly, case included. -/
abbrev Token := List Char

/-- One line of the program as text, comment included (R3, R100). -/
abbrev Line := List Char

end Sys2Proof
end

