-- ==== Sys2Proof/Syntax.lean ====
section
/-! DEFINITION. The instructions: one constructor of `Instr` per row of spec/opcode_table.json (R140), and the operand
classes of R104. -/

namespace Sys2Proof

/-- The 13 registers (R30, R122). -/
inductive Reg
  | AX | BX | CX | DX | SP | BP | SI | DI | IP | CS | DS | ES | SS
  deriving DecidableEq, Repr

/-- The six output devices (R45). -/
inductive Device
  | LED1 | LED2 | LED3 | Fan1 | Fan2 | Fan3
  deriving DecidableEq, Repr, Inhabited

/-- The PPI's ports (R47, R340). -/
inductive Port
  | A | B | C
  deriving DecidableEq, Repr

/-- The twelve voice codes, the tokens `01` to `12` (R330). -/
inductive VoiceCode
  | v01 | v02 | v03 | v04 | v05 | v06 | v07 | v08 | v09 | v10 | v11 | v12
  deriving DecidableEq, Repr

/-- The 38 mnemonics of the opcode map (R140). -/
inductive Mnemonic
  | mov | add | sub | mul | div | and | or | xor
  | not | push | pop | jmp | call | ret | hlt | movsb
  | movsw | cmpsb | cmpsw | stc | clc | dotCode | dotData | dotStack
  | db | dw | dd | proc | endp | voice | status | configTimer
  | startTimer | stopTimer | tickTimer | writeCtrl | writePort | readPort
  deriving DecidableEq, Repr

/-- What the text of an operand token spells, before any table is consulted (R105, R107, R122). -/
inductive Form
  /-- A decimal literal, with its unbounded value (R105). -/
  | imm (value : Int)
  /-- A register name (R122). -/
  | reg (r : Reg)
  /-- Direct `[N]` (R125). -/
  | direct (n : Int)
  /-- Register-indirect `[R]` (R126). -/
  | indirect (r : Reg)
  /-- Base+index `[R1+R2]`, write path only (R129). -/
  | indexed (r1 r2 : Reg)
  /-- IP-relative `[IP+N]`, write path only (R130). -/
  | ipRel (n : Int)
  /-- Any other spelling: a label, or nothing at all (R121). -/
  | other
  deriving DecidableEq, Repr

/-- An operand of class `rop`, `wop`, `rwop` or `tgt` (R104): its token, which the tables are searched for and an
AddressingError records, and the form the token spells. `WellFormed` says the two belong together. -/
structure Operand where
  tok  : Token
  form : Form
  deriving DecidableEq, Repr

/-- An operand of class `vcode` (R104, R330). -/
inductive VoiceArg
  | code (c : VoiceCode)
  | unknown (tok : Token)
  deriving DecidableEq, Repr

/-- An operand of class `dev` (R104, R331). -/
inductive DeviceArg
  | device (d : Device)
  | unknown (tok : Token)
  deriving DecidableEq, Repr

/-- An operand of class `port` (R104, R340). -/
inductive PortArg
  | port (p : Port)
  | unknown (tok : Token)
  deriving DecidableEq, Repr

/-- A decoded line (R102, R140). Tokens a format ignores (FM, FL and the operands of an unknown opcode) are not kept
(log 16). -/
inductive Instr
  -- 41_alu.md
  | mov (dst src : Operand)
  | add (dst src : Operand)
  | sub (dst src : Operand)
  | mul (dst src : Operand)
  | div (dst src : Operand)
  | and (dst src : Operand)
  | or (dst src : Operand)
  | xor (dst src : Operand)
  | not (dst : Operand)
  -- 42_stack_control.md
  | push (src : Operand)
  | pop (dst : Operand)
  | jmp (tgt : Operand)
  | call (tgt : Operand)
  | ret
  | hlt
  -- 43_string_flag.md
  | movsb
  | movsw
  | cmpsb
  | cmpsw
  | stc
  | clc
  -- 44_directives.md
  | dotCode
  | dotData
  | dotStack
  | db (label : Token) (value : Int)
  | dw (label : Token) (value : Int)
  | dd (label : Token) (value : Int)
  | proc (name : Token)
  | endp
  -- 45_peripheral.md
  | voice (code : VoiceArg)
  | status (dev : DeviceArg)
  | configTimer (mode : Int) (value : Word)
  | startTimer
  | stopTimer
  | tickTimer
  | writeCtrl (b : Byte)
  | writePort (port : PortArg) (b : Byte)
  | readPort (port : PortArg)
  -- the line classes that are no mnemonic: R318, R320, R319
  | label (name : Token)
  | empty
  | unknown (tok : Token)
  deriving DecidableEq, Repr

end Sys2Proof
end

