-- ==== Sys2Proof/Machine/Lex.lean ====
section
/-! DEFINITION. Characters, tokens, literals and operand forms (R101, R105, R106, R107, R122): everything that reads the
text of a token without looking at the machine. -/

namespace Sys2Proof

/-- Whitespace (R101): space, tab, and any other whitespace character, taken to be the characters with Unicode's
White_Space property. PRESUMED (log 4). -/
def isSpace (c : Char) : Bool :=
  let n := c.toNat
  (decide (9 ≤ n) && decide (n ≤ 13)) || n == 32 || n == 133 || n == 160 || n == 5760 ||
    (decide (8192 ≤ n) && decide (n ≤ 8202)) || n == 8232 || n == 8233 || n == 8239 || n == 8287 || n == 12288

/-- The line up to, not including, its first `;` (R101). -/
def stripComment : Line → Line
  | [] => []
  | c :: cs => if c = ';' then [] else c :: stripComment cs

/-- The maximal runs of non-whitespace characters, in order; `cur` is the run being read (R101). -/
def splitTokens : List Char → Token → List Token
  | [], cur => if cur = [] then [] else [cur]
  | c :: cs, cur =>
    if isSpace c then
      if cur = [] then splitTokens cs [] else cur :: splitTokens cs []
    else splitTokens cs (cur ++ [c])

/-- The tokens of a line (R101). -/
def tokenize (line : Line) : List Token := splitTokens (stripComment line) []

/-- A character a token can hold: no whitespace, and no `;`, which starts the comment (R101). -/
def isTokenChar (c : Char) : Bool := !isSpace c && c != ';'

/-- A token as R101 makes them: not empty, each character one a token can hold. -/
def isToken (t : Token) : Bool := !t.isEmpty && t.all isTokenChar

/-! ## Literals -/

/-- The value of a decimal digit (R105). -/
def digitValue? (c : Char) : Option Nat :=
  if 48 ≤ c.toNat ∧ c.toNat ≤ 57 then some (c.toNat - 48) else none

/-- The value of a run of decimal digits read after the digits already worth `acc`. -/
def digitsFrom? (acc : Nat) : List Char → Option Nat
  | [] => some acc
  | c :: cs =>
    match digitValue? c with
    | some d => digitsFrom? (acc * 10 + d) cs
    | none => none

/-- The value of `[0-9]+` (R105). -/
def digits? (cs : List Char) : Option Nat := if cs = [] then none else digitsFrom? 0 cs

/-- The value of a decimal literal `[+-]?[0-9]+` (R105), with no width limit. -/
def decimal? : Token → Option Int
  | [] => none
  | c :: cs =>
    if c = '+' then (digits? cs).map Int.ofNat
    else if c = '-' then (digits? cs).map (fun n => -(Int.ofNat n))
    else (digits? (c :: cs)).map Int.ofNat

/-- The value of a hexadecimal digit of either case (R106). -/
def hexDigitValue? (c : Char) : Option Nat :=
  let n := c.toNat
  if 48 ≤ n ∧ n ≤ 57 then some (n - 48)
  else if 65 ≤ n ∧ n ≤ 70 then some (n - 55)
  else if 97 ≤ n ∧ n ≤ 102 then some (n - 87)
  else none

/-- The value of one or two hexadecimal digits (R106). -/
def hexDigits? : Token → Option Byte
  | [a] => (hexDigitValue? a).map (BitVec.ofNat 8)
  | [a, b] =>
    match hexDigitValue? a, hexDigitValue? b with
    | some x, some y => some (BitVec.ofNat 8 (16 * x + y))
    | _, _ => none
  | _ => none

/-- The value of a hexadecimal byte literal `(0[xX])?[0-9A-Fa-f]` with one or two digits (R106). -/
def hexByte? (t : Token) : Option Byte :=
  match t with
  | z :: x :: ds => if z = '0' ∧ (x = 'x' ∨ x = 'X') then hexDigits? ds else hexDigits? t
  | _ => hexDigits? t

/-! ## Names -/

/-- The spelling of a register (R122). -/
def Reg.text : Reg → Token
  | .AX => ['A', 'X'] | .BX => ['B', 'X'] | .CX => ['C', 'X'] | .DX => ['D', 'X']
  | .SP => ['S', 'P'] | .BP => ['B', 'P'] | .SI => ['S', 'I'] | .DI => ['D', 'I'] | .IP => ['I', 'P']
  | .CS => ['C', 'S'] | .DS => ['D', 'S'] | .ES => ['E', 'S'] | .SS => ['S', 'S']

/-- The 13 registers, in the order of R30. -/
def Reg.all : List Reg := [.AX, .BX, .CX, .DX, .SP, .BP, .SI, .DI, .IP, .CS, .DS, .ES, .SS]

/-- The register a token names (R122). -/
def regName? (t : Token) : Option Reg := Reg.all.find? (fun r => r.text == t)

/-- The exact spelling of each mnemonic (R140). -/
def Mnemonic.text : Mnemonic → Token
  | .mov => ['M', 'O', 'V']
  | .add => ['A', 'D', 'D']
  | .sub => ['S', 'U', 'B']
  | .mul => ['M', 'U', 'L']
  | .div => ['D', 'I', 'V']
  | .and => ['A', 'N', 'D']
  | .or => ['O', 'R']
  | .xor => ['X', 'O', 'R']
  | .not => ['N', 'O', 'T']
  | .push => ['P', 'U', 'S', 'H']
  | .pop => ['P', 'O', 'P']
  | .jmp => ['J', 'M', 'P']
  | .call => ['C', 'A', 'L', 'L']
  | .ret => ['R', 'E', 'T']
  | .hlt => ['H', 'L', 'T']
  | .movsb => ['M', 'O', 'V', 'S', 'B']
  | .movsw => ['M', 'O', 'V', 'S', 'W']
  | .cmpsb => ['C', 'M', 'P', 'S', 'B']
  | .cmpsw => ['C', 'M', 'P', 'S', 'W']
  | .stc => ['S', 'T', 'C']
  | .clc => ['C', 'L', 'C']
  | .dotCode => ['.', 'C', 'O', 'D', 'E']
  | .dotData => ['.', 'D', 'A', 'T', 'A']
  | .dotStack => ['.', 'S', 'T', 'A', 'C', 'K']
  | .db => ['D', 'B']
  | .dw => ['D', 'W']
  | .dd => ['D', 'D']
  | .proc => ['P', 'R', 'O', 'C']
  | .endp => ['E', 'N', 'D', 'P']
  | .voice => ['V', 'O', 'I', 'C', 'E']
  | .status => ['S', 'T', 'A', 'T', 'U', 'S']
  | .configTimer => ['C', 'O', 'N', 'F', 'I', 'G', '_', 'T', 'I', 'M', 'E', 'R']
  | .startTimer => ['S', 'T', 'A', 'R', 'T', '_', 'T', 'I', 'M', 'E', 'R']
  | .stopTimer => ['S', 'T', 'O', 'P', '_', 'T', 'I', 'M', 'E', 'R']
  | .tickTimer => ['T', 'I', 'C', 'K', '_', 'T', 'I', 'M', 'E', 'R']
  | .writeCtrl => ['W', 'R', 'I', 'T', 'E', '_', 'C', 'T', 'R', 'L']
  | .writePort => ['W', 'R', 'I', 'T', 'E', '_', 'P', 'O', 'R', 'T']
  | .readPort => ['R', 'E', 'A', 'D', '_', 'P', 'O', 'R', 'T']

/-- The 38 mnemonics, in the order of R140. -/
def Mnemonic.all : List Mnemonic :=
  [.mov, .add, .sub, .mul, .div, .and, .or, .xor,
   .not, .push, .pop, .jmp, .call, .ret, .hlt, .movsb,
   .movsw, .cmpsb, .cmpsw, .stc, .clc, .dotCode, .dotData, .dotStack,
   .db, .dw, .dd, .proc, .endp, .voice, .status, .configTimer,
   .startTimer, .stopTimer, .tickTimer, .writeCtrl, .writePort, .readPort]

/-- The mnemonic a token spells (R102, R140). -/
def mnemonic? (t : Token) : Option Mnemonic := Mnemonic.all.find? (fun m => m.text == t)

/-- The spelling of a device (R331). -/
def Device.text : Device → Token
  | .LED1 => ['L', 'E', 'D', '1'] | .LED2 => ['L', 'E', 'D', '2'] | .LED3 => ['L', 'E', 'D', '3']
  | .Fan1 => ['F', 'a', 'n', '1'] | .Fan2 => ['F', 'a', 'n', '2'] | .Fan3 => ['F', 'a', 'n', '3']

/-- The six devices, in the order of R45. -/
def Device.all : List Device := [.LED1, .LED2, .LED3, .Fan1, .Fan2, .Fan3]

/-- The device a token names (R331). -/
def deviceName? (t : Token) : Option Device := Device.all.find? (fun d => d.text == t)

/-- The spelling of a port (R340). -/
def Port.text : Port → Token
  | .A => ['A'] | .B => ['B'] | .C => ['C']

/-- The three ports (R340). -/
def Port.all : List Port := [.A, .B, .C]

/-- The port a token names (R340). -/
def portName? (t : Token) : Option Port := Port.all.find? (fun p => p.text == t)

/-- The spelling of a voice code (R330). -/
def VoiceCode.text : VoiceCode → Token
  | .v01 => ['0', '1'] | .v02 => ['0', '2'] | .v03 => ['0', '3'] | .v04 => ['0', '4']
  | .v05 => ['0', '5'] | .v06 => ['0', '6'] | .v07 => ['0', '7'] | .v08 => ['0', '8']
  | .v09 => ['0', '9'] | .v10 => ['1', '0'] | .v11 => ['1', '1'] | .v12 => ['1', '2']

/-- The twelve voice codes (R330). -/
def VoiceCode.all : List VoiceCode :=
  [.v01, .v02, .v03, .v04, .v05, .v06, .v07, .v08, .v09, .v10, .v11, .v12]

/-- The voice code a token spells (R330). -/
def voiceCode? (t : Token) : Option VoiceCode := VoiceCode.all.find? (fun c => c.text == t)

/-! ## Operand forms -/

/-- The text before the first `+` and the text after it; `none` where there is no `+` (R107). -/
def splitPlus? : List Char → Option (Token × Token)
  | [] => none
  | c :: cs => if c = '+' then some ([], cs) else (splitPlus? cs).map (fun p => (c :: p.1, p.2))

/-- The form `R1+R2` or `IP+N` of a bracket token's inner text, base+index first (R107). -/
def sumForm (left right : Token) : Form :=
  match regName? left, regName? right with
  | some r1, some r2 => .indexed r1 r2
  | some .IP, none =>
    match decimal? right with
    | some n => .ipRel n
    | none => .other
  | _, _ => .other

/-- The form of a bracket token's inner text (R107). -/
def innerForm (inner : Token) : Form :=
  match decimal? inner with
  | some n => .direct n
  | none =>
    match regName? inner with
    | some r => .indirect r
    | none =>
      match splitPlus? inner with
      | some (l, r) => sumForm l r
      | none => .other

/-- The text between the brackets of a bracket token (R107). -/
def bracketInner? : Token → Option Token
  | [] => none
  | c :: cs => if c = '[' ∧ cs.getLast? = some ']' then some cs.dropLast else none

/-- The form an operand token spells, in the order of R120 and R127. -/
def formOf (t : Token) : Form :=
  match decimal? t with
  | some v => .imm v
  | none =>
    match regName? t with
    | some r => .reg r
    | none =>
      match bracketInner? t with
      | some inner => innerForm inner
      | none => .other

/-- The operand of a token (R104). -/
def operandOf (t : Token) : Operand := ⟨t, formOf t⟩

end Sys2Proof
end

