-- ==== Sys2Proof/WellFormed.lean ====
section
/-! DEFINITION. Which terms of `Instr` some line spells (R101, R104, R107, R140). -/

namespace Sys2Proof

/-- A token ends with `:` (R102). -/
def endsWithColon (t : Token) : Bool := t.getLast? == some ':'

/-- An operand is a token together with the form that token spells (R104). -/
def Operand.wf (o : Operand) : Bool := isToken o.tok && decide (o.form = formOf o.tok)

/-- An unknown voice operand is a token that spells none of the twelve codes (R330). -/
def VoiceArg.wf : VoiceArg → Bool
  | .code _ => true
  | .unknown t => isToken t && (voiceCode? t).isNone

/-- An unknown device operand is a token that spells none of the six devices (R331). -/
def DeviceArg.wf : DeviceArg → Bool
  | .device _ => true
  | .unknown t => isToken t && (deviceName? t).isNone

/-- An unknown port operand is a token that spells none of the three ports (R340). -/
def PortArg.wf : PortArg → Bool
  | .port _ => true
  | .unknown t => isToken t && (portName? t).isNone

/-- Some line spells the instruction (R102, R103). -/
def Instr.wf : Instr → Bool
  | .mov d s => d.wf && s.wf
  | .add d s => d.wf && s.wf
  | .sub d s => d.wf && s.wf
  | .mul d s => d.wf && s.wf
  | .div d s => d.wf && s.wf
  | .and d s => d.wf && s.wf
  | .or d s => d.wf && s.wf
  | .xor d s => d.wf && s.wf
  | .not d => d.wf
  | .push s => s.wf
  | .pop d => d.wf
  | .jmp t => t.wf
  | .call t => t.wf
  | .ret => true
  | .hlt => true
  | .movsb => true
  | .movsw => true
  | .cmpsb => true
  | .cmpsw => true
  | .stc => true
  | .clc => true
  | .dotCode => true
  | .dotData => true
  | .dotStack => true
  | .db l _ => isToken l
  | .dw l _ => isToken l
  | .dd l _ => isToken l
  | .proc n => isToken n
  | .endp => true
  | .voice c => c.wf
  | .status d => d.wf
  | .configTimer _ _ => true
  | .startTimer => true
  | .stopTimer => true
  | .tickTimer => true
  | .writeCtrl _ => true
  | .writePort p _ => p.wf
  | .readPort p => p.wf
  | .label n => n.all isTokenChar
  | .empty => true
  | .unknown t => isToken t && !endsWithColon t && (mnemonic? t).isNone

end Sys2Proof
end

