-- ==== Sys2Proof/Decode.lean ====
section
/-! DEFINITION. From a line of text to an instruction (R101, R102, R103, R141), and back. -/

namespace Sys2Proof

/-- Why a line of a known mnemonic is malformed: the checks of R141, in their order. Each is a DecodeError (R141). -/
inductive DecodeReject
  /-- The token count does not match the mnemonic's format (R141, check 1). -/
  | tokenCount (m : Mnemonic)
  /-- A `dec` operand is no decimal literal (R141, check 2). -/
  | notDecimal (m : Mnemonic)
  /-- A `hex8` operand is no hexadecimal byte literal (R141, check 3). -/
  | notHexByte (m : Mnemonic)
  /-- The CONFIG_TIMER value is outside 0 to 65535 (R141, check 4). -/
  | valueRange
  deriving DecidableEq, Repr

/-! ## Operand classes -/

/-- Class `vcode` (R104, R330). -/
def voiceArgOf (t : Token) : VoiceArg :=
  match voiceCode? t with
  | some c => .code c
  | none => .unknown t

/-- Class `dev` (R104, R331). -/
def deviceArgOf (t : Token) : DeviceArg :=
  match deviceName? t with
  | some d => .device d
  | none => .unknown t

/-- Class `port` (R104, R340). -/
def portArgOf (t : Token) : PortArg :=
  match portName? t with
  | some p => .port p
  | none => .unknown t

/-! ## Formats -/

/-- Format F0: no operand token (R103). -/
def formatF0 (m : Mnemonic) (i : Instr) : List Token → Except DecodeReject Instr
  | [] => .ok i
  | _ => .error (.tokenCount m)

/-- Format F1: one operand token (R103). -/
def formatF1 (m : Mnemonic) (k : Token → Except DecodeReject Instr) : List Token → Except DecodeReject Instr
  | [a] => k a
  | _ => .error (.tokenCount m)

/-- Format F2: two operand tokens, destination first (R103). -/
def formatF2 (m : Mnemonic) (k : Token → Token → Except DecodeReject Instr) : List Token → Except DecodeReject Instr
  | [a, b] => k a b
  | _ => .error (.tokenCount m)

/-- DB, DW and DD: a name and a decimal literal (R140, R141). -/
def decodeData (m : Mnemonic) (mk : Token → Int → Instr) (l v : Token) : Except DecodeReject Instr :=
  match decimal? v with
  | some n => .ok (mk l n)
  | none => .error (.notDecimal m)

/-- CONFIG_TIMER: two decimal literals, the second in 0 to 65535 (R140, R141). -/
def decodeConfigTimer (mode value : Token) : Except DecodeReject Instr :=
  match decimal? mode, decimal? value with
  | some m, some n =>
    if 0 ≤ n ∧ n ≤ 65535 then .ok (.configTimer m (BitVec.ofInt 16 n)) else .error .valueRange
  | _, _ => .error (.notDecimal .configTimer)

/-- WRITE_CTRL: a hexadecimal byte (R140, R141). -/
def decodeWriteCtrl (b : Token) : Except DecodeReject Instr :=
  match hexByte? b with
  | some v => .ok (.writeCtrl v)
  | none => .error (.notHexByte .writeCtrl)

/-- WRITE_PORT: a port and a hexadecimal byte (R140, R141). -/
def decodeWritePort (p b : Token) : Except DecodeReject Instr :=
  match hexByte? b with
  | some v => .ok (.writePort (portArgOf p) v)
  | none => .error (.notHexByte .writePort)

/-- The operand tokens of a line whose first token is a mnemonic (R140, R141). The markers ignore theirs (format FM). -/
def decodeOperands (m : Mnemonic) (ops : List Token) : Except DecodeReject Instr :=
  match m with
  | .mov => formatF2 m (fun d s => .ok (.mov (operandOf d) (operandOf s))) ops
  | .add => formatF2 m (fun d s => .ok (.add (operandOf d) (operandOf s))) ops
  | .sub => formatF2 m (fun d s => .ok (.sub (operandOf d) (operandOf s))) ops
  | .mul => formatF2 m (fun d s => .ok (.mul (operandOf d) (operandOf s))) ops
  | .div => formatF2 m (fun d s => .ok (.div (operandOf d) (operandOf s))) ops
  | .and => formatF2 m (fun d s => .ok (.and (operandOf d) (operandOf s))) ops
  | .or => formatF2 m (fun d s => .ok (.or (operandOf d) (operandOf s))) ops
  | .xor => formatF2 m (fun d s => .ok (.xor (operandOf d) (operandOf s))) ops
  | .not => formatF1 m (fun d => .ok (.not (operandOf d))) ops
  | .push => formatF1 m (fun s => .ok (.push (operandOf s))) ops
  | .pop => formatF1 m (fun d => .ok (.pop (operandOf d))) ops
  | .jmp => formatF1 m (fun t => .ok (.jmp (operandOf t))) ops
  | .call => formatF1 m (fun t => .ok (.call (operandOf t))) ops
  | .ret => formatF0 m .ret ops
  | .hlt => formatF0 m .hlt ops
  | .movsb => formatF0 m .movsb ops
  | .movsw => formatF0 m .movsw ops
  | .cmpsb => formatF0 m .cmpsb ops
  | .cmpsw => formatF0 m .cmpsw ops
  | .stc => formatF0 m .stc ops
  | .clc => formatF0 m .clc ops
  | .dotCode => .ok .dotCode
  | .dotData => .ok .dotData
  | .dotStack => .ok .dotStack
  | .db => formatF2 m (decodeData m .db) ops
  | .dw => formatF2 m (decodeData m .dw) ops
  | .dd => formatF2 m (decodeData m .dd) ops
  | .proc => formatF1 m (fun n => .ok (.proc n)) ops
  | .endp => .ok .endp
  | .voice => formatF1 m (fun c => .ok (.voice (voiceArgOf c))) ops
  | .status => formatF1 m (fun d => .ok (.status (deviceArgOf d))) ops
  | .configTimer => formatF2 m decodeConfigTimer ops
  | .startTimer => formatF0 m .startTimer ops
  | .stopTimer => formatF0 m .stopTimer ops
  | .tickTimer => formatF0 m .tickTimer ops
  | .writeCtrl => formatF1 m decodeWriteCtrl ops
  | .writePort => formatF2 m decodeWritePort ops
  | .readPort => formatF1 m (fun p => .ok (.readPort (portArgOf p))) ops

/-- The four line classes, in the order of R102. -/
def decodeTokens : List Token → Except DecodeReject Instr
  | [] => .ok .empty
  | t :: ops =>
    if endsWithColon t then .ok (.label t.dropLast)
    else
      match mnemonic? t with
      | some m => decodeOperands m ops
      | none => .ok (.unknown t)

/-- The instruction a line spells, or the check of R141 it fails. Total on every text. -/
def decode (line : Line) : Except DecodeReject Instr := decodeTokens (tokenize line)

/-! ## The encoder -/

/-- A decimal digit as a character. -/
def digitChar (d : Nat) : Char := Char.ofNat (48 + d)

/-- The decimal digits of `n`, most significant first; `fuel` bounds their number. -/
def decimalDigits : Nat → Nat → Token
  | 0, n => [digitChar (n % 10)]
  | fuel + 1, n => if n < 10 then [digitChar n] else decimalDigits fuel (n / 10) ++ [digitChar (n % 10)]

/-- The decimal literal of a natural number (R105). -/
def natToken (n : Nat) : Token := decimalDigits n n

/-- A decimal literal of an integer (R105). -/
def intToken : Int → Token
  | .ofNat n => natToken n
  | .negSucc n => '-' :: natToken (n + 1)

/-- A hexadecimal digit as a character (R106). -/
def hexChar (d : Nat) : Char := if d < 10 then Char.ofNat (48 + d) else Char.ofNat (55 + d)

/-- The two-digit hexadecimal literal of a byte (R106). -/
def byteToken (b : Byte) : Token := [hexChar (b.toNat / 16), hexChar (b.toNat % 16)]

/-- The token of a `vcode` operand. -/
def VoiceArg.token : VoiceArg → Token
  | .code c => c.text
  | .unknown t => t

/-- The token of a `dev` operand. -/
def DeviceArg.token : DeviceArg → Token
  | .device d => d.text
  | .unknown t => t

/-- The token of a `port` operand. -/
def PortArg.token : PortArg → Token
  | .port p => p.text
  | .unknown t => t

/-- The tokens of a line that spells the instruction (R103, R140). -/
def encodeTokens : Instr → List Token
  | .mov d s => [Mnemonic.text .mov, d.tok, s.tok]
  | .add d s => [Mnemonic.text .add, d.tok, s.tok]
  | .sub d s => [Mnemonic.text .sub, d.tok, s.tok]
  | .mul d s => [Mnemonic.text .mul, d.tok, s.tok]
  | .div d s => [Mnemonic.text .div, d.tok, s.tok]
  | .and d s => [Mnemonic.text .and, d.tok, s.tok]
  | .or d s => [Mnemonic.text .or, d.tok, s.tok]
  | .xor d s => [Mnemonic.text .xor, d.tok, s.tok]
  | .not d => [Mnemonic.text .not, d.tok]
  | .push s => [Mnemonic.text .push, s.tok]
  | .pop d => [Mnemonic.text .pop, d.tok]
  | .jmp t => [Mnemonic.text .jmp, t.tok]
  | .call t => [Mnemonic.text .call, t.tok]
  | .ret => [Mnemonic.text .ret]
  | .hlt => [Mnemonic.text .hlt]
  | .movsb => [Mnemonic.text .movsb]
  | .movsw => [Mnemonic.text .movsw]
  | .cmpsb => [Mnemonic.text .cmpsb]
  | .cmpsw => [Mnemonic.text .cmpsw]
  | .stc => [Mnemonic.text .stc]
  | .clc => [Mnemonic.text .clc]
  | .dotCode => [Mnemonic.text .dotCode]
  | .dotData => [Mnemonic.text .dotData]
  | .dotStack => [Mnemonic.text .dotStack]
  | .db l v => [Mnemonic.text .db, l, intToken v]
  | .dw l v => [Mnemonic.text .dw, l, intToken v]
  | .dd l v => [Mnemonic.text .dd, l, intToken v]
  | .proc n => [Mnemonic.text .proc, n]
  | .endp => [Mnemonic.text .endp]
  | .voice c => [Mnemonic.text .voice, c.token]
  | .status d => [Mnemonic.text .status, d.token]
  | .configTimer m v => [Mnemonic.text .configTimer, intToken m, natToken v.toNat]
  | .startTimer => [Mnemonic.text .startTimer]
  | .stopTimer => [Mnemonic.text .stopTimer]
  | .tickTimer => [Mnemonic.text .tickTimer]
  | .writeCtrl b => [Mnemonic.text .writeCtrl, byteToken b]
  | .writePort p b => [Mnemonic.text .writePort, p.token, byteToken b]
  | .readPort p => [Mnemonic.text .readPort, p.token]
  | .label n => [n ++ [':']]
  | .empty => []
  | .unknown t => [t]

/-- Tokens separated by one space (R143). -/
def joinTokens : List Token → Line
  | [] => []
  | [t] => t
  | t :: ts => t ++ ' ' :: joinTokens ts

/-- A line that spells the instruction (R143). -/
def encode (i : Instr) : Line := joinTokens (encodeTokens i)

/-! ## The opcode table's numbering -/

/-- The line whose characters are the bytes of `w`, the first character in the lowest byte: the spec has no binary
format (R3, N2), so a byte of the table's numbering is a character code. DESIGN CHOICE (log 5). -/
def lineOfBits (nbits w : Nat) : Line :=
  (List.range (nbits / 8)).map (fun k => Char.ofNat ((w / 256 ^ k) % 256))

/-- The instruction the decoder reads from a line given as bits (log 5). -/
def decodeTableWord (nbits w : Nat) : Option Instr :=
  match decode (lineOfBits nbits w) with
  | .ok i => some i
  | .error _ => none

end Sys2Proof
end

