-- ==== Sys2Proof/Machine/Bits.lean ====
section
/-! DEFINITION. Reduction to 16 bits, the sign, big-endian packing and single bits of a byte (R10, R11, R13, R87). -/

namespace Sys2Proof.Machine

/-- `u16(v)`: an integer modulo 65536 (R10). -/
def u16 (v : Int) : Word := BitVec.ofInt 16 v

/-- `sign(v)`: bit 15 (R11, R201). -/
def sign (v : Word) : Bool := v.getLsbD 15

/-- `v[15:8]`, the byte at the lower address of a word (R85, R87). -/
def hiByte (v : Word) : Byte := v.extractLsb' 8 8

/-- `v[7:0]`, the byte at the higher address of a word (R85, R87). -/
def loByte (v : Word) : Byte := v.extractLsb' 0 8

/-- `hi ++ lo`, a word from its bytes, the first from the lower address (R11, R83). -/
def joinBytes (hi lo : Byte) : Word := hi ++ lo

/-- A byte zero-extended to 16 bits (R11, R292). -/
def zext (b : Byte) : Word := b.setWidth 16

/-- The byte whose only set bit is bit `k` (R11). -/
def bitMask (k : Fin 8) : Byte := BitVec.twoPow 8 k.val

/-- `b` with bit `k` set to 1 (R441). -/
def setBit (b : Byte) (k : Fin 8) : Byte := b ||| bitMask k

/-- `b` with bit `k` set to 0 (R443). -/
def clearBit (b : Byte) (k : Fin 8) : Byte := b &&& ~~~(bitMask k)

/-- Bit `k` of `b` (R11). -/
def testBit (b : Byte) (k : Fin 8) : Bool := b.getLsbD k.val

end Sys2Proof.Machine
end

