-- ==== Sys2Proof/Config.lean ====
section
/-! DEFINITION. What an implementation fixes (00_scope.md R9): the parameters the spec fixes have a value here. An OPEN
one is a constant without a body, of a type that holds exactly the values the spec admits: nothing can be proved of it but
what the spec requires. The default values in those types only show that the spec admits some value (log 2). -/

namespace Sys2Proof.Config

/-- Where the carry-in of ADD and SUB comes from (R208). -/
inductive CarrySource
  | zero
  | cf
  deriving DecidableEq, Repr

/-- `P_CARRY_IN`: the spec sets ZERO (R208, D5; log 3). -/
def carrySource : CarrySource := .zero

/-- `P_MEM_SIZE`: the size of data memory in bytes (R9, R49). -/
abbrev memSize : Nat := 256

/-- The counter values a tick rule may name (R336). -/
inductive TickValue
  | two | three | five
  deriving DecidableEq, Repr

/-- The devices a tick rule may drive (R336). -/
inductive TickDevice
  | LED3 | Fan3
  deriving DecidableEq, Repr

/-- What a tick rule does to its device (R336). -/
inductive TickAction
  | on | off | invert
  deriving DecidableEq, Repr

/-- One rule `(v, d, act)` of `P_TICK_RULES` (R336). -/
structure TickRule where
  value  : TickValue
  device : TickDevice
  action : TickAction
  deriving DecidableEq, Repr

/-- Whether the coupling sees the counter before or after the tick (R336). -/
inductive TickSample
  | before | after
  deriving DecidableEq, Repr, Inhabited

/-- Whether a tick on a stopped channel counts (R336). -/
inductive TickGate
  | runningOnly | always
  deriving DecidableEq, Repr, Inhabited

/-- The triple `P_TICK_RULES = (rules, sample, gate)` (R336). -/
structure TickRules where
  rules  : List TickRule
  sample : TickSample
  gate   : TickGate
  deriving DecidableEq, Repr, Inhabited

/-- Whether there is one interrupt controller or a master and a slave (R440). -/
inductive PicCascade
  | single | masterSlave
  deriving DecidableEq, Repr, Inhabited

/-- The values `P_VOICE_MAP` may take (R9, R330, D28): a bijection of the 12 codes onto the 6 devices and 2 states. -/
structure VoiceMapping where
  /-- The device and the state (true is ON) each code selects. -/
  map : VoiceCode → Device × Bool := fun
    | .v01 => (.LED1, true) | .v02 => (.LED1, false) | .v03 => (.LED2, true) | .v04 => (.LED2, false)
    | .v05 => (.LED3, true) | .v06 => (.LED3, false) | .v07 => (.Fan1, true) | .v08 => (.Fan1, false)
    | .v09 => (.Fan2, true) | .v10 => (.Fan2, false) | .v11 => (.Fan3, true) | .v12 => (.Fan3, false)
  /-- No two codes select the same device and state. -/
  injective : ∀ c c', map c = map c' → c = c' := by
    intro c c'
    cases c <;> cases c' <;> simp
  /-- Every device and state is selected. -/
  surjective : ∀ d on, ∃ c, map c = (d, on) := by
    intro d on
    cases d <;> cases on
    · exact ⟨.v02, rfl⟩
    · exact ⟨.v01, rfl⟩
    · exact ⟨.v04, rfl⟩
    · exact ⟨.v03, rfl⟩
    · exact ⟨.v06, rfl⟩
    · exact ⟨.v05, rfl⟩
    · exact ⟨.v08, rfl⟩
    · exact ⟨.v07, rfl⟩
    · exact ⟨.v10, rfl⟩
    · exact ⟨.v09, rfl⟩
    · exact ⟨.v12, rfl⟩
    · exact ⟨.v11, rfl⟩
  deriving Inhabited

/-- The values `P_TICK_RULES` may take (R336, D30): each counter value and each device appears in some rule. -/
structure TickCoupler where
  /-- The triple of R336. -/
  triple : TickRules := ⟨[⟨.two, .LED3, .on⟩, ⟨.three, .LED3, .on⟩, ⟨.five, .Fan3, .on⟩], .before, .always⟩
  /-- Every value 2, 3 and 5 appears in at least one rule. -/
  values : ∀ v, ∃ r ∈ triple.rules, r.value = v := by
    intro v
    cases v <;> simp
  /-- Each of LED3 and Fan3 appears in at least one rule. -/
  devices : ∀ d, ∃ r ∈ triple.rules, r.device = d := by
    intro d
    cases d <;> simp
  deriving Inhabited

/-- The values `P_PPI_MODE_FIELD` may take (R436, D37): three positions whose 2-bit fields do not overlap. -/
structure ModeFields where
  /-- The bit position, 0 to 6, of each port's field. -/
  position : Port → Fin 7 := fun
    | .A => 0 | .B => 2 | .C => 4
  /-- Of two ports' fields one ends before the other starts. -/
  apart : ∀ p q, p ≠ q → (position p).val + 2 ≤ (position q).val ∨ (position q).val + 2 ≤ (position p).val := by
    intro p q
    cases p <;> cases q <;> decide
  deriving Inhabited

/-- The setting of `P_VOICE_MAP`, OPEN (log 2). -/
opaque voiceMapping : VoiceMapping

/-- `P_VOICE_MAP` (R330). -/
def voiceMap : VoiceCode → Device × Bool := voiceMapping.map

/-- The setting of `P_TICK_RULES`, OPEN (log 2). -/
opaque tickCoupler : TickCoupler

/-- `P_TICK_RULES` (R336). -/
def tickRules : TickRules := tickCoupler.triple

/-- The setting of `P_PPI_MODE_FIELD`, OPEN (log 2). -/
opaque modeFields : ModeFields

/-- `P_PPI_MODE_FIELD` (R436). -/
def ppiModeField : Port → Fin 7 := modeFields.position

/-- `P_TIMER_CHANNELS`, OPEN, at least 1 (R420, D31): the number of channels beyond channel 0 (log 2). -/
opaque extraTimerChannels : Nat

/-- `P_TIMER_CHANNELS` itself (R420). -/
def timerChannels : Nat := extraTimerChannels + 1

/-- `P_PIC_CASCADE`, OPEN (R440, D43; log 2). -/
opaque picCascade : PicCascade

end Sys2Proof.Config
end

