-- ==== Sys2Proof/Machine/State.lean ====
section
/-! DEFINITION. The state of the CORE (10_state.md) as plain data, the reasons a step can stop, and reset. -/

namespace Sys2Proof.Machine

/-- The register file (R30): one field per register, named as the spec names it. -/
structure Regs where
  (AX BX CX DX SP BP SI DI IP CS DS ES SS : Word)
  deriving DecidableEq, Repr

/-- The seven flags (R36). There is no packed word (R38). -/
structure Flags where
  (CF PF ZF SF OF DF IF : Bool)
  deriving DecidableEq, Repr

/-- What an AddressingError records: the operand token or the data address (R401; log 8). -/
inductive AddrInfo
  | token (t : Token)
  | address (a : Int)
  deriving DecidableEq, Repr

/-- The two fatal errors with what each records (R401). The line's index stays in IP (R402). -/
inductive FatalError
  /-- AddressingError: an operand does not resolve, or a data address is out of range. -/
  | addressing (info : AddrInfo)
  /-- DecodeError: a known mnemonic with a wrong token count or a malformed literal (R141). -/
  | decode (line : Line)
  deriving DecidableEq, Repr

/-- The run status (R39). -/
inductive Status
  | running
  | halted
  | overrun
  | error (e : FatalError)
  deriving DecidableEq, Repr

/-- The current-segment marker (R40). -/
inductive Segment
  | none | code | data | stack
  deriving DecidableEq, Repr

/-- A finite map from strings to 16-bit values (R41, R42, R43), its keys strictly rising (log 11). -/
abbrev Table := List (Token × Word)

/-- Data memory: the bytes that differ from 0, their addresses strictly rising (R49; log 12). -/
abbrev Memory := List Host.Cell

/-- The six output devices' `on` states (R45). -/
structure Devices where
  (LED1 LED2 LED3 Fan1 Fan2 Fan3 : Bool)
  deriving DecidableEq, Repr

/-- One timer channel (R46). -/
structure TimerChannel where
  ctrl    : Byte
  counter : Word
  initial : Word
  mode    : Int
  running : Bool
  deriving DecidableEq, Repr

/-- The parallel interface (R47). `rd`, `wr` and `cs` are active low: `false` is asserted. -/
structure Ppi where
  ctrl  : Byte
  portA : Byte
  portB : Byte
  portC : Byte
  a1    : Bool
  a0    : Bool
  rd    : Bool
  wr    : Bool
  cs    : Bool
  data  : Byte
  deriving DecidableEq, Repr

/-- One interrupt controller (R48). -/
structure Pic where
  IRR     : Byte
  ISR     : Byte
  IMR     : Byte
  prio    : List (Fin 8)
  nested  : Int
  ackLine : Bool
  deriving DecidableEq, Repr

/-- A master with its slave and the master's pending-cascade flag (R48). -/
structure PicPair where
  master         : Pic
  cascadePending : Bool
  slave          : Pic
  deriving DecidableEq, Repr

/-- The controllers the configuration holds (R48, R440). -/
inductive PicSystem
  | single (c : Pic)
  | masterSlave (p : PicPair)
  deriving DecidableEq, Repr

/-- The instruction that met an empty Call Stack (R253, R257). -/
inductive StackUser
  | POP | RET
  deriving DecidableEq, Repr

/-- The gated PPI access (R433, R434). -/
inductive PpiAccess
  | write | read
  deriving DecidableEq, Repr

/-- The diagnostic events with their info (R404). -/
inductive Diag
  | stackUnderflow (who : StackUser)
  | unknownOpcode (tok : Token)
  | unknownCommand (tok : Token)
  | unknownDevice (tok : Token)
  | invalidPort (tok : Token)
  | invalidChannel (c : Int)
  | invalidAddressLine (a1 a0 : Int)
  | gatedOff (access : PpiAccess)
  | invalidMode (port : Port) (mode : Nat)
  | invalidIRQ (k : Int)
  | statusReport (device : Device) (on : Bool)
  deriving DecidableEq, Repr

/-- The state of the CORE (10_state.md). -/
structure State where
  /-- The 13 registers, IP among them (R30, R35). -/
  regs     : Regs
  /-- The seven flags (R36). -/
  flags    : Flags
  /-- The run status (R39). -/
  status   : Status
  /-- The current-segment marker (R40). -/
  segment  : Segment
  /-- The Data Segment Table (R41). -/
  dst      : Table
  /-- The Label Table (R42). -/
  labels   : Table
  /-- The Procedure Table (R43). -/
  procs    : Table
  /-- The Call Stack, its last element the last in (R44). -/
  cstack   : List Word
  /-- Data memory (R49). -/
  mem      : Memory
  /-- The output devices (R45). -/
  devices  : Devices
  /-- The timer's channels, channel 0 first (R46, R420). -/
  timers   : List TimerChannel
  /-- The parallel interface (R47). -/
  ppi      : Ppi
  /-- The interrupt controllers (R48). -/
  pic      : PicSystem
  /-- The diagnostic stream, oldest event first (R51, R409). -/
  diags    : List Diag
  /-- The program's lines, line 0 first (R50): a launch input no instruction writes (log 1). -/
  program  : List Line
  deriving DecidableEq, Repr

/-- Reasons a step stops without a next state: none. Every line and every state of this spec has an effect: a fatal error
is the status `Error` (R402), an unknown opcode a diagnostic (R319), a stop state stays as it is (R39). Nobody raises a
fault, so the type has no constructor (log 13). -/
inductive Fault
  deriving DecidableEq, Repr

/-- Reasons an instruction has no meaning in the model. -/
inductive Refusal
  /-- Raised by `exec` alone, for an instruction whose meaning is not written; no arm raises it. Safe: the model stops
  where the hardware goes on. -/
  | notModelled (mnemonic : String)
  deriving DecidableEq, Repr

/-! ## Invariants of the data's form -/

/-- Every pair of neighbours is in the order `lt` by its key. -/
def sortedBy {κ ν : Type} (lt : κ → κ → Bool) : List (κ × ν) → Bool
  | [] => true
  | [_] => true
  | a :: b :: l => lt a.1 b.1 && sortedBy lt (b :: l)

/-- Lexicographic order of tokens by character code: the order in which a `Table` lists its keys (log 11). -/
def tokenLt : Token → Token → Bool
  | _, [] => false
  | [], _ :: _ => true
  | a :: as, b :: bs => decide (a.toNat < b.toNat) || (decide (a.toNat = b.toNat) && tokenLt as bs)

/-- The canonical form of a table: keys strictly rising, so unique (R41). -/
def Table.wf (t : Table) : Bool := sortedBy tokenLt t

/-- The canonical form of memory: addresses strictly rising and below `P_MEM_SIZE`, no entry equal to what an unlisted
address reads as. -/
def Memory.wf (m : Memory) : Bool :=
  sortedBy (fun a b => decide (a < b)) m && m.all (fun c => decide (c.1 < Config.memSize) && c.2 != 0)

/-! ## Reset (R52, R500) -/

/-- A timer channel at reset (R46). -/
def TimerChannel.reset : TimerChannel := { ctrl := 0, counter := 0, initial := 0, mode := 0, running := false }

/-- The PPI at reset: lines deasserted (R47). -/
def Ppi.reset : Ppi :=
  { ctrl := 0, portA := 0, portB := 0, portC := 0, a1 := false, a0 := false, rd := true, wr := true, cs := true, data := 0 }

/-- A controller at reset (R48). -/
def Pic.reset : Pic :=
  { IRR := 0, ISR := 0, IMR := 0, prio := [0, 1, 2, 3, 4, 5, 6, 7], nested := 0, ackLine := false }

/-- The controllers of a configuration at reset (R48, R440). -/
def PicSystem.reset : Config.PicCascade → PicSystem
  | .single => .single Pic.reset
  | .masterSlave => .masterSlave { master := Pic.reset, cascadePending := false, slave := Pic.reset }

/-- All registers 0, IP among them (R52). -/
def Regs.reset : Regs :=
  { AX := 0, BX := 0, CX := 0, DX := 0, SP := 0, BP := 0, SI := 0, DI := 0, IP := 0, CS := 0, DS := 0, ES := 0, SS := 0 }

/-- All flags false (R52). -/
def Flags.reset : Flags :=
  { CF := false, PF := false, ZF := false, SF := false, OF := false, DF := false, IF := false }

/-- All devices off (R45, R52). -/
def Devices.reset : Devices :=
  { LED1 := false, LED2 := false, LED3 := false, Fan1 := false, Fan2 := false, Fan3 := false }

/-- The machine right after reset (R52, R500), with no line of a program loaded: `State.launch` starts a run of a given
program (log 1). -/
def State.reset : State :=
  { regs := Regs.reset
    flags := Flags.reset
    status := .running
    segment := .none
    dst := []
    labels := []
    procs := []
    cstack := []
    mem := []
    devices := Devices.reset
    timers := TimerChannel.reset :: List.replicate Config.extraTimerChannels TimerChannel.reset
    ppi := Ppi.reset
    pic := PicSystem.reset Config.picCascade
    diags := []
    program := [] }

end Sys2Proof.Machine
end

