-- ==== Sys2Proof/Machine/Ops.lean ====
section
/-! DEFINITION. The named operations over the state: registers, tables, data memory, the Call Stack, diagnostics, the
fatal error every meaning raises (R402), what the fetch loop does around a line (R250, R251), and the start of a run. -/

namespace Sys2Proof.Machine

/-- The outcome of a step or of a meaning. -/
abbrev Result := Host.Outcome State Fault Refusal

/-! ## Registers (R12, R31) -/

/-- `x[r]`. -/
def Regs.get (f : Regs) : Reg → Word
  | .AX => f.AX | .BX => f.BX | .CX => f.CX | .DX => f.DX
  | .SP => f.SP | .BP => f.BP | .SI => f.SI | .DI => f.DI | .IP => f.IP
  | .CS => f.CS | .DS => f.DS | .ES => f.ES | .SS => f.SS

/-- `x[r] <- v`. -/
def Regs.set (f : Regs) (r : Reg) (v : Word) : Regs :=
  match r with
  | .AX => { f with AX := v } | .BX => { f with BX := v } | .CX => { f with CX := v } | .DX => { f with DX := v }
  | .SP => { f with SP := v } | .BP => { f with BP := v } | .SI => { f with SI := v } | .DI => { f with DI := v }
  | .IP => { f with IP := v } | .CS => { f with CS := v } | .DS => { f with DS := v } | .ES => { f with ES := v }
  | .SS => { f with SS := v }

/-- `x[r]` of the machine (R12). -/
def State.getReg (s : State) (r : Reg) : Word := s.regs.get r

/-- `x[r] <- v` of the machine (R12). -/
def State.setReg (s : State) (r : Reg) (v : Word) : State := { s with regs := s.regs.set r v }

/-- The flags replaced as one commit (R211). -/
def State.setFlags (s : State) (f : Flags) : State := { s with flags := f }

/-! ## Sorted lists of key and value pairs -/

/-- The value of a key. -/
def findKey {κ ν : Type} [DecidableEq κ] (k : κ) : List (κ × ν) → Option ν
  | [] => none
  | (k', v) :: l => if k' = k then some v else findKey k l

/-- The list with `k` mapped to `v`, in the order `lt`: a new entry, or the old one replaced. -/
def insertKey {κ ν : Type} [DecidableEq κ] (lt : κ → κ → Bool) (k : κ) (v : ν) : List (κ × ν) → List (κ × ν)
  | [] => [(k, v)]
  | (k', v') :: l =>
    if k' = k then (k, v) :: l
    else if lt k k' then (k, v) :: (k', v') :: l
    else (k', v') :: insertKey lt k v l

/-- The list without any entry of `k`. -/
def eraseKey {κ ν : Type} [DecidableEq κ] (k : κ) : List (κ × ν) → List (κ × ν)
  | [] => []
  | (k', v') :: l => if k' = k then eraseKey k l else (k', v') :: eraseKey k l

/-! ## Tables (R41, R42, R43) -/

/-- The value of a string in a table, `none` where the string is no key. -/
def Table.find? (t : Table) (k : Token) : Option Word := findKey k t

/-- The table with `k` mapped to `v`: an insertion, or a replacement (R41). -/
def Table.insert (t : Table) (k : Token) (v : Word) : Table := insertKey tokenLt k v t

/-! ## Data memory (R82 to R86) -/

/-- The byte at an address; an unlisted address reads as 0, the reset contents (R52; log 12). -/
def Memory.read (m : Memory) (a : Nat) : Byte := (findKey a m).getD 0

/-- The byte at an address replaced; writing what an unlisted address reads as removes the entry. -/
def Memory.write (m : Memory) (a : Nat) (b : Byte) : Memory :=
  if b = 0 then eraseKey a m else insertKey (fun x y => decide (x < y)) a b m

/-- `mem[a]`. -/
def State.readByte (s : State) (a : Nat) : Byte := s.mem.read a

/-- `mem[a] <- b`. -/
def State.writeByte (s : State) (a : Nat) (b : Byte) : State := { s with mem := s.mem.write a b }

/-- Every byte address of an access of `n` bytes at `a` lies in `[0, P_MEM_SIZE-1]` (R13). -/
def inRange (a : Int) (n : Int) : Bool := decide (0 ≤ a) && decide (a + n ≤ Config.memSize)

/-- The AddressingError of a data address out of range (R82 to R85, R401). -/
def addressError (a : Int) : FatalError := .addressing (.address a)

/-- The AddressingError of an operand token that does not resolve (R121, R127, R131, R401). -/
def tokenError (t : Token) : FatalError := .addressing (.token t)

/-- `MemRead(a, 1)` (R82). -/
def State.memRead1 (s : State) (a : Int) : Except FatalError Byte :=
  if inRange a 1 then .ok (s.readByte a.toNat) else .error (addressError a)

/-- `MemRead(a, 2)`, big-endian (R83). -/
def State.memRead2 (s : State) (a : Int) : Except FatalError Word :=
  if inRange a 2 then .ok (joinBytes (s.readByte a.toNat) (s.readByte (a.toNat + 1))) else .error (addressError a)

/-- `MemWrite(a, 1, b)` (R84). -/
def State.memWrite1 (s : State) (a : Int) (b : Byte) : Except FatalError State :=
  if inRange a 1 then .ok (s.writeByte a.toNat b) else .error (addressError a)

/-- `MemWrite(a, 2, v)`, big-endian (R85). -/
def State.memWrite2 (s : State) (a : Int) (v : Word) : Except FatalError State :=
  if inRange a 2 then .ok ((s.writeByte a.toNat (hiByte v)).writeByte (a.toNat + 1) (loByte v))
  else .error (addressError a)

/-! ## Call Stack (R44) -/

/-- `CStack.append(v)`. -/
def State.push (s : State) (v : Word) : State := { s with cstack := s.cstack ++ [v] }

/-- The last element of the Call Stack. -/
def State.top? (s : State) : Option Word := s.cstack.getLast?

/-- The Call Stack without its last element. -/
def State.dropTop (s : State) : State := { s with cstack := s.cstack.dropLast }

/-! ## Diagnostics (R409) -/

/-- Events appended to the diagnostic stream, in order. -/
def State.emitAll (s : State) (ds : List Diag) : State := { s with diags := s.diags ++ ds }

/-- `diag(kind, info)`: one event appended (R15, R409). -/
def State.emit (s : State) (d : Diag) : State := s.emitAll [d]

/-! ## Fatal errors

There is no trap entry and no return from one (R407, R408): a fatal error is the whole of exception handling. -/

/-- A fatal error (R402): the status becomes `Error` with the error's kind and info; nothing of the line is kept and IP
keeps the line's index (log 7). -/
def State.raise (s : State) (e : FatalError) : State := { s with status := .error e }

/-- A line's result over the state `s` before it: its writes committed, or, at the first error reached, all of them
discarded (R17, R250, R402, R406). -/
def commit (s : State) : Except FatalError State → Result
  | .ok t => .next t
  | .error e => .next (s.raise e)

/-- The status is `Error` (R39). -/
def State.failed (s : State) : Bool :=
  match s.status with
  | .error _ => true
  | _ => false

/-! ## The fetch loop (R250, R251) -/

/-- The line IP selects, `none` where IP is not below `L` (R250). -/
def State.fetch (s : State) : Option Line := s.program[(s.getReg .IP).toNat]?

/-- `x[IP] <- x[IP] + 1`, modulo 65536 (R251). -/
def State.advance (s : State) : State := s.setReg .IP (s.getReg .IP + 1)

/-- After a line: IP advances, but after a fatal error IP keeps the line's index (R250, R402). -/
def State.retire (s : State) : State := if s.failed then s else s.advance

/-- The outcome of a line with the loop's work after it (R250). -/
def finish : Result → Result
  | .next s => .next s.retire
  | .fault f => .fault f
  | .refused r => .refused r

/-- A step that finds IP not below `L`: no line runs, the status becomes `Overrun` (R250). -/
def State.overrun (s : State) : State := { s with status := .overrun }

/-! ## The start of a run (R500, R501, R502, R506) -/

/-- The host starts a run of a program of `L` lines, `0 <= L <= 65536`: reset, with that program and nothing else
supplied (R502). The other launch inputs, the open parameters, are the constants of Config. -/
def State.launch (program : List Line) : State := { State.reset with program := program }

/-- The program with one line put at an index, empty lines before it where the program is shorter. -/
def placeLine (line : Line) : Nat → List Line → List Line
  | 0, [] => [line]
  | 0, _ :: ls => line :: ls
  | n + 1, [] => [] :: placeLine line n []
  | n + 1, l :: ls => l :: placeLine line n ls

end Sys2Proof.Machine
end

