-- ==== Sys2Proof/Machine/Flags.lean ====
section
/-! DEFINITION. The ALU (41_alu.md, R200 to R209): each operation computes exactly on integers, then narrows to 16 bits,
and writes the flags its rule names, the others kept (R209). -/

namespace Sys2Proof.Machine

/-- What an ALU operation returns: its 16-bit result and the flags after it (R200). -/
structure AluOut where
  value : Word
  flags : Flags
  deriving DecidableEq, Repr

/-- `ZF <- (r = 0); SF <- (r[15] = 1)`, written by every operation (R201). -/
def Flags.withResult (f : Flags) (r : Word) : Flags := { f with ZF := decide (r = 0), SF := sign r }

/-- The carry-in of every use of ALU_ADD and ALU_SUB, for a setting of `P_CARRY_IN` (R208). -/
def carryInOf (p : Config.CarrySource) (f : Flags) : Bool :=
  match p with
  | .zero => false
  | .cf => f.CF

/-- The carry-in, `P_CARRY_IN` as the spec sets it (R208; log 3). -/
def carryIn (f : Flags) : Bool := carryInOf Config.carrySource f

/-- `ALU_ADD(a, b, cin)` (R202). -/
def aluAdd (a b : Word) (cin : Bool) (f : Flags) : AluOut :=
  let sum := a.toNat + b.toNat + cin.toNat
  let r := u16 sum
  { value := r
    flags := { f.withResult r with
      CF := decide (65535 < sum)
      OF := decide (sign a = sign b) && decide (sign r ≠ sign a) } }

/-- `ALU_SUB(a, b, cin)` (R203). -/
def aluSub (a b : Word) (cin : Bool) (f : Flags) : AluOut :=
  let diff : Int := (a.toNat : Int) - b.toNat - cin.toNat
  let r := u16 (if diff < 0 then diff + 65536 else diff)
  { value := r
    flags := { f.withResult r with
      CF := decide (diff < 0)
      OF := decide (sign a ≠ sign b) && decide (sign r ≠ sign a) } }

/-- `ALU_MUL(a, b)`: the low 16 bits of the product (R204). -/
def aluMul (a b : Word) (f : Flags) : AluOut :=
  let r := u16 ((a.toNat * b.toNat : Nat) : Int)
  { value := r, flags := f.withResult r }

/-- `ALU_DIV(a, b)`: the unsigned quotient, 0 where `b` is 0 (R205). -/
def aluDiv (a b : Word) (f : Flags) : AluOut :=
  let r := if b = 0 then 0 else u16 ((a.toNat / b.toNat : Nat) : Int)
  { value := r, flags := f.withResult r }

/-- `ALU_AND(a, b)` (R206). -/
def aluAnd (a b : Word) (f : Flags) : AluOut :=
  let r := a &&& b
  { value := r, flags := f.withResult r }

/-- `ALU_OR(a, b)` (R206). -/
def aluOr (a b : Word) (f : Flags) : AluOut :=
  let r := a ||| b
  { value := r, flags := f.withResult r }

/-- `ALU_XOR(a, b)` (R206). -/
def aluXor (a b : Word) (f : Flags) : AluOut :=
  let r := a ^^^ b
  { value := r, flags := f.withResult r }

/-- `ALU_NOT(a)`: 65535 - a (R207). -/
def aluNot (a : Word) (f : Flags) : AluOut :=
  let r := u16 (65535 - a.toNat)
  { value := r, flags := f.withResult r }

end Sys2Proof.Machine
end

