-- ==== Sys2Proof/Machine/Operands.lean ====
section
/-! DEFINITION. The operand resolver (30_encoding.md, R120 to R131). -/

namespace Sys2Proof.Machine

/-- Where `ReadOp` finds an operand's value: a value at hand, or a word of data memory. -/
inductive Source
  | value (v : Word)
  | memory (a : Int)
  deriving DecidableEq, Repr

/-- Where `WriteOp` stores: a register, an entry of the Data Segment Table, or a word of data memory. -/
inductive Dest
  | reg (r : Reg)
  | label (tok : Token)
  | memory (a : Int)
  deriving DecidableEq, Repr

/-- A register's value as a data address (R126, R129). -/
def State.regAddr (s : State) (r : Reg) : Int := (s.getReg r).toNat

/-- The data address of a form `ReadOp` reaches through memory, modes (4) and (5) (R120, R125, R126). -/
def readAddr? (s : State) : Form → Option Int
  | .direct n => some n
  | .indirect r => some (s.regAddr r)
  | .imm _ => none
  | .reg _ => none
  | .indexed _ _ => none
  | .ipRel _ => none
  | .other => none

/-- The data address of a form `WriteOp` reaches through memory, modes (4) to (7); nothing wraps (R127, R129, R130). -/
def writeAddr? (s : State) : Form → Option Int
  | .direct n => some n
  | .indirect r => some (s.regAddr r)
  | .indexed r1 r2 => some (s.regAddr r1 + s.regAddr r2)
  | .ipRel n => some (s.regAddr .IP + n)
  | .imm _ => none
  | .reg _ => none
  | .other => none

/-- The source of an operand, by the first mode of R120 that applies; `none` where none does (R121). -/
def source? (o : Operand) (s : State) : Option Source :=
  match o.form with
  | .imm v => some (.value (u16 v))
  | .reg r => some (.value (s.getReg r))
  | f =>
    match s.dst.find? o.tok with
    | some v => some (.value v)
    | none => (readAddr? s f).map .memory

/-- The destination of an operand, by the first mode of R127 that applies; `none` where none does or the operand is a
literal. -/
def dest? (o : Operand) (s : State) : Option Dest :=
  match o.form with
  | .imm _ => none
  | .reg r => some (.reg r)
  | f =>
    match s.dst.find? o.tok with
    | some _ => some (.label o.tok)
    | none => (writeAddr? s f).map .memory

/-- `ReadOp(tok)` (R120). -/
def readOp (o : Operand) (s : State) : Except FatalError Word :=
  match source? o s with
  | some (.value v) => .ok v
  | some (.memory a) => s.memRead2 a
  | none => .error (tokenError o.tok)

/-- A value stored at a destination (R127, R128). -/
def storeAt (d : Dest) (v : Word) (s : State) : Except FatalError State :=
  match d with
  | .reg r => .ok (s.setReg r v)
  | .label t => .ok { s with dst := s.dst.insert t v }
  | .memory a => s.memWrite2 a v

/-- `WriteOp(tok, v)` (R127). -/
def writeOp (o : Operand) (v : Word) (s : State) : Except FatalError State :=
  match dest? o s with
  | some d => storeAt d v s
  | none => .error (tokenError o.tok)

/-- `Target(tok)`: the Label Table, then the Procedure Table, then a decimal literal (R131). -/
def target (o : Operand) (s : State) : Except FatalError Word :=
  match s.labels.find? o.tok with
  | some v => .ok v
  | none =>
    match s.procs.find? o.tok with
    | some v => .ok v
    | none =>
      match o.form with
      | .imm v => .ok (u16 v)
      | .reg _ => .error (tokenError o.tok)
      | .direct _ => .error (tokenError o.tok)
      | .indirect _ => .error (tokenError o.tok)
      | .indexed _ _ => .error (tokenError o.tok)
      | .ipRel _ => .error (tokenError o.tok)
      | .other => .error (tokenError o.tok)

end Sys2Proof.Machine
end

