-- ==== Sys2Proof/Machine/Alu.lean ====
section
/-! DEFINITION. MOV and the ALU instructions (41_alu.md, R210 to R218). -/

namespace Sys2Proof.Machine

/-- A two-operand ALU line: destination read, source read, compute, destination written, flags committed (R211, D52). -/
def aluLine2 (op : Word → Word → Flags → AluOut) (dst src : Operand) (s : State) : Result :=
  commit s (do
    let a ← readOp dst s
    let b ← readOp src s
    let out := op a b s.flags
    let t ← writeOp dst out.value s
    .ok (t.setFlags out.flags))

/-- A one-operand ALU line (R218). -/
def aluLine1 (op : Word → Flags → AluOut) (dst : Operand) (s : State) : Result :=
  commit s (do
    let a ← readOp dst s
    let out := op a s.flags
    let t ← writeOp dst out.value s
    .ok (t.setFlags out.flags))

/-- MOV (R210): source read, destination written, no flag. -/
def execMov (dst src : Operand) (s : State) : Result :=
  commit s (do
    let v ← readOp src s
    writeOp dst v s)

/-- ADD (R211). -/
def execAdd (dst src : Operand) (s : State) : Result :=
  aluLine2 (fun a b f => aluAdd a b (carryIn f) f) dst src s

/-- SUB (R212). -/
def execSub (dst src : Operand) (s : State) : Result :=
  aluLine2 (fun a b f => aluSub a b (carryIn f) f) dst src s

/-- MUL (R213). -/
def execMul (dst src : Operand) (s : State) : Result := aluLine2 aluMul dst src s

/-- DIV (R214). -/
def execDiv (dst src : Operand) (s : State) : Result := aluLine2 aluDiv dst src s

/-- AND (R215). -/
def execAnd (dst src : Operand) (s : State) : Result := aluLine2 aluAnd dst src s

/-- OR (R216). -/
def execOr (dst src : Operand) (s : State) : Result := aluLine2 aluOr dst src s

/-- XOR (R217). -/
def execXor (dst src : Operand) (s : State) : Result := aluLine2 aluXor dst src s

/-- NOT (R218). -/
def execNot (dst : Operand) (s : State) : Result := aluLine1 aluNot dst s

end Sys2Proof.Machine
end

