-- ==== Sys2Proof/Machine/Control.lean ====
section
/-! DEFINITION. PUSH, POP, JMP, CALL, RET and HLT (42_stack_control.md, R252 to R258). The fetch loop adds 1 to IP after
each of them (R251). -/

namespace Sys2Proof.Machine

/-- `IP <- t - 1`: the loop then adds 1, so that the next line is `t` (R254). -/
def State.jumpTo (s : State) (t : Word) : State := s.setReg .IP (t - 1)

/-- PUSH (R252). -/
def execPush (src : Operand) (s : State) : Result :=
  commit s (do
    let v ← readOp src s
    .ok (s.push v))

/-- POP (R253): on an empty stack the operand is not resolved. -/
def execPop (dst : Operand) (s : State) : Result :=
  match s.top? with
  | none => .next (s.emit (.stackUnderflow .POP))
  | some v => commit s (writeOp dst v s.dropTop)

/-- JMP (R254). -/
def execJmp (tgt : Operand) (s : State) : Result :=
  commit s (do
    let t ← target tgt s
    .ok (s.jumpTo t))

/-- CALL (R256): pushes the line's index plus 1, then jumps. -/
def execCall (tgt : Operand) (s : State) : Result :=
  commit s (do
    let t ← target tgt s
    .ok ((s.push (s.getReg .IP + 1)).jumpTo t))

/-- RET (R257): the popped value goes into IP as it is. -/
def execRet (s : State) : Result :=
  match s.top? with
  | none => .next (s.emit (.stackUnderflow .RET))
  | some v => .next (s.dropTop.setReg .IP v)

/-- HLT (R258): the halt signal; with the loop's increment after it the run ends Halted at the line's index plus 1
(log 14). -/
def execHlt (s : State) : Result := .next { s with status := .halted }

end Sys2Proof.Machine
end

