-- ==== Sys2Proof/Machine/Directives.lean ====
section
/-! DEFINITION. Pseudo-operations, label lines, empty lines and unknown opcodes (44_directives.md, R310 to R320). -/

namespace Sys2Proof.Machine

/-- `DST[label] <- u16(value)`: an insertion or a replacement (R313). -/
def State.defineData (s : State) (label : Token) (value : Int) : State :=
  { s with dst := s.dst.insert label (u16 value) }

/-- .CODE (R310). -/
def execDotCode (s : State) : Result := .next { s with segment := .code }

/-- .DATA (R311). -/
def execDotData (s : State) : Result := .next { s with segment := .data }

/-- .STACK (R312). -/
def execDotStack (s : State) : Result := .next { s with segment := .stack }

/-- DB (R313). -/
def execDb (label : Token) (value : Int) (s : State) : Result := .next (s.defineData label value)

/-- DW (R314): the same value as DB; the name does not change the width. -/
def execDw (label : Token) (value : Int) (s : State) : Result := .next (s.defineData label value)

/-- DD (R315): the same value as DB; the upper 16 bits are not kept. -/
def execDd (label : Token) (value : Int) (s : State) : Result := .next (s.defineData label value)

/-- PROC (R316): the index of the PROC line itself. -/
def execProc (name : Token) (s : State) : Result :=
  .next { s with procs := s.procs.insert name (s.getReg .IP) }

/-- ENDP (R317): a marker without effect. -/
def execEndp (s : State) : Result := .next s

/-- A label line (R318): the index of the line itself. -/
def execLabel (name : Token) (s : State) : Result :=
  .next { s with labels := s.labels.insert name (s.getReg .IP) }

/-- An empty line (R320): no effect and no diagnostic. -/
def execEmpty (s : State) : Result := .next s

/-- An unknown opcode (R319): a diagnostic and nothing else. -/
def execUnknown (tok : Token) (s : State) : Result := .next (s.emit (.unknownOpcode tok))

end Sys2Proof.Machine
end

