-- ==== Sys2Proof/Machine/InterruptController.lean ====
section
/-! DEFINITION. The interrupt controller (60_exceptions.md, R440 to R450). No instruction drives it (R403, R410). -/

namespace Sys2Proof.Machine

/-- An operation on an IRQ number: the number checked first, an InvalidIRQ event and no change where it is outside 0 to 7
(R448). -/
def withIrq {α : Type} (k : Int) (f : Fin 8 → α → α) (x : α) : α × List Diag :=
  if h : 0 ≤ k ∧ k ≤ 7 then (f ⟨k.toNat, by omega⟩ x, []) else (x, [.invalidIRQ k])

/-- `IRR[k] <- 1` (R441). -/
def Pic.requestIrq (k : Fin 8) (p : Pic) : Pic := { p with IRR := setBit p.IRR k }

/-- `IMR[k] <- 1` (R442). -/
def Pic.maskIrq (k : Fin 8) (p : Pic) : Pic := { p with IMR := setBit p.IMR k }

/-- `IMR[k] <- 0` (R443). -/
def Pic.unmaskIrq (k : Fin 8) (p : Pic) : Pic := { p with IMR := clearBit p.IMR k }

/-- `IRR[k] <- 0; ISR[k] <- 1; nested <- nested + 1`, without a guard (R445). -/
def Pic.acknowledgeIrq (k : Fin 8) (p : Pic) : Pic :=
  { p with IRR := clearBit p.IRR k, ISR := setBit p.ISR k, nested := p.nested + 1 }

/-- `ISR[k] <- 0; nested <- nested - 1`, without a guard (R446). -/
def Pic.endIrq (k : Fin 8) (p : Pic) : Pic := { p with ISR := clearBit p.ISR k, nested := p.nested - 1 }

/-- `check()`: the first IRQ in priority order that is pending and not masked; ISR is not consulted (R444). -/
def Pic.check (p : Pic) : Option (Fin 8) := p.prio.find? (fun k => testBit p.IRR k && !testBit p.IMR k)

/-- `rotate_priority()`: the first entry goes to the end (R447). -/
def Pic.rotate (p : Pic) : Pic := { p with prio := p.prio.drop 1 ++ p.prio.take 1 }

/-- `request(k)` on an instance (R441). -/
def Pic.request (k : Int) (p : Pic) : Pic × List Diag := withIrq k Pic.requestIrq p

/-- `mask(k)` (R442). -/
def Pic.mask (k : Int) (p : Pic) : Pic × List Diag := withIrq k Pic.maskIrq p

/-- `unmask(k)` (R443). -/
def Pic.unmask (k : Int) (p : Pic) : Pic × List Diag := withIrq k Pic.unmaskIrq p

/-- `acknowledge(k)` on an instance (R445). -/
def Pic.acknowledge (k : Int) (p : Pic) : Pic × List Diag := withIrq k Pic.acknowledgeIrq p

/-- `end_of_interrupt(k)` (R446). -/
def Pic.endOfInterrupt (k : Int) (p : Pic) : Pic × List Diag := withIrq k Pic.endIrq p

/-! ## The master's overrides (R449) -/

/-- The master's `request` of a checked IRQ: line 2 only sets the pending-cascade flag (R449). -/
def PicPair.requestIrq (k : Fin 8) (q : PicPair) : PicPair :=
  if k = 2 then { q with cascadePending := true } else { q with master := q.master.requestIrq k }

/-- The master's `acknowledge` of a checked IRQ: with the flag set it is cleared and the slave acknowledges the same IRQ
(R449). -/
def PicPair.acknowledgeIrq (k : Fin 8) (q : PicPair) : PicPair :=
  if q.cascadePending then { q with cascadePending := false, slave := q.slave.acknowledgeIrq k }
  else { q with master := q.master.acknowledgeIrq k }

/-- `master.request(k)` (R449). -/
def PicPair.masterRequest (k : Int) (q : PicPair) : PicPair × List Diag := withIrq k PicPair.requestIrq q

/-- `master.acknowledge(k)` (R449). -/
def PicPair.masterAcknowledge (k : Int) (q : PicPair) : PicPair × List Diag := withIrq k PicPair.acknowledgeIrq q

/-- An operation on the master alone (R449). -/
def PicPair.onMaster (f : Pic → Pic × List Diag) (q : PicPair) : PicPair × List Diag :=
  ({ q with master := (f q.master).1 }, (f q.master).2)

/-- An operation on the slave, an ordinary instance (R440). -/
def PicPair.onSlave (f : Pic → Pic × List Diag) (q : PicPair) : PicPair × List Diag :=
  ({ q with slave := (f q.slave).1 }, (f q.slave).2)

end Sys2Proof.Machine
end

