-- ==== Sys2Proof/Machine/ParallelInterface.lean ====
section
/-! DEFINITION. The parallel interface (60_exceptions.md, R430 to R437). -/

namespace Sys2Proof.Machine

/-- `reg(a1, a0)`: the register the address lines select (R430). -/
def Ppi.selected (p : Ppi) : Byte :=
  match p.a1, p.a0 with
  | false, false => p.portA
  | false, true => p.portB
  | true, false => p.portC
  | true, true => p.ctrl

/-- `reg(a1, a0) <- b` (R430). -/
def Ppi.setSelected (p : Ppi) (b : Byte) : Ppi :=
  match p.a1, p.a0 with
  | false, false => { p with portA := b }
  | false, true => { p with portB := b }
  | true, false => { p with portC := b }
  | true, true => { p with ctrl := b }

/-- `set_address(a1, a0)`: each line must be 0 or 1, else an InvalidAddressLine event and no change (R431). -/
def ppiSetAddress (a1 a0 : Int) (s : State) : State :=
  if (a1 = 0 ∨ a1 = 1) ∧ (a0 = 0 ∨ a0 = 1) then
    { s with ppi := { s.ppi with a1 := decide (a1 = 1), a0 := decide (a0 = 1) } }
  else s.emit (.invalidAddressLine a1 a0)

/-- `set_control_lines(rd, wr, cs)`, active low (R432). -/
def ppiSetLines (rd wr cs : Bool) (s : State) : State :=
  { s with ppi := { s.ppi with rd := rd, wr := wr, cs := cs } }

/-- `write(b)`: chip-select and write-enable asserted, the latch takes the byte, then the selected register takes the
latch; else a GatedOff event and no change (R433). -/
def ppiWrite (b : Byte) (s : State) : State :=
  if s.ppi.cs = false ∧ s.ppi.wr = false then
    let latched := { s.ppi with data := b }
    { s with ppi := latched.setSelected latched.data }
  else s.emit (.gatedOff .write)

/-- `read()`: chip-select and read-enable asserted, the latch takes the selected register; else a GatedOff event and no
change (R434). -/
def ppiRead (s : State) : State :=
  if s.ppi.cs = false ∧ s.ppi.rd = false then { s with ppi := { s.ppi with data := s.ppi.selected } }
  else s.emit (.gatedOff .read)

/-- `get_data()` (R435). -/
def ppiGetData (s : State) : Byte := s.ppi.data

/-- What `configure_ports` reports of a port (R436). -/
inductive PortMode
  | input | output | invalid
  deriving DecidableEq, Repr

/-- The 2-bit mode field at bit position `at'` of the control register (R436). -/
def modeField (ctrl : Byte) (at' : Fin 7) : Nat := (ctrl.extractLsb' at'.val 2).toNat

/-- The report of one mode field: 0 is Input, 1 Output, anything else invalid (R436). -/
def portModeOf (m : Nat) : PortMode := if m = 0 then .input else if m = 1 then .output else .invalid

/-- The InvalidMode event of a port whose mode field is 2 or 3 (R436). -/
def modeDiags (p : Port) (m : Nat) : List Diag := if 2 ≤ m then [.invalidMode p m] else []

/-- `configure_ports()` for a setting of `P_PPI_MODE_FIELD`: the reports of A, B and C, and the events in that order;
no register changes (R436). -/
def ppiConfigurePorts (field : Port → Fin 7) (s : State) : State × PortMode × PortMode × PortMode :=
  let m (p : Port) : Nat := modeField s.ppi.ctrl (field p)
  (s.emitAll (modeDiags .A (m .A) ++ modeDiags .B (m .B) ++ modeDiags .C (m .C)),
    portModeOf (m .A), portModeOf (m .B), portModeOf (m .C))

/-- `PortAddress`: the address lines of a port, `(a1, a0)` (R340). -/
def portAddress : Port → Int × Int
  | .A => (0, 0)
  | .B => (0, 1)
  | .C => (1, 0)

end Sys2Proof.Machine
end

