-- ==== Sys2Proof/Machine/Timer.lean ====
section
/-! DEFINITION. The timer (60_exceptions.md, R420 to R427) and the output devices with the tick coupling (R45, R336). -/

namespace Sys2Proof.Machine

/-! ## Channels -/

/-- `configure` on a channel (R421). -/
def TimerChannel.configure (mode : Int) (n : Word) (ch : TimerChannel) : TimerChannel :=
  { ch with counter := n, initial := n, mode := mode, running := false }

/-- `start` on a channel: running where the counter is above 0, else no change (R422). -/
def TimerChannel.start (ch : TimerChannel) : TimerChannel :=
  if ch.counter = 0 then ch else { ch with running := true }

/-- `stop` on a channel: unconditional, the counter kept (R423). -/
def TimerChannel.stop (ch : TimerChannel) : TimerChannel := { ch with running := false }

/-- `tick` on a channel: a running counter goes down by 1 and stops at 0; a stopped one does not change (R424). -/
def TimerChannel.tick (ch : TimerChannel) : TimerChannel :=
  if ch.running then
    let n := ch.counter - 1
    { ch with counter := n, running := decide (n ≠ 0) }
  else ch

/-- The list with the element at an index changed, the same list where there is none. -/
def updateAt {α : Type} (f : α → α) : Nat → List α → List α
  | _, [] => []
  | 0, x :: xs => f x :: xs
  | n + 1, x :: xs => x :: updateAt f n xs

/-- A timer operation: the channel index checked first, an InvalidChannel event and no change where there is no such
channel (R425). -/
def onChannel (c : Int) (f : TimerChannel → TimerChannel) (s : State) : State :=
  match c with
  | .ofNat n =>
    match s.timers[n]? with
    | some _ => { s with timers := updateAt f n s.timers }
    | none => s.emit (.invalidChannel c)
  | .negSucc _ => s.emit (.invalidChannel c)

/-- `configure(c, mode, n)` (R421). -/
def timerConfigure (c : Int) (mode : Int) (n : Word) (s : State) : State := onChannel c (TimerChannel.configure mode n) s

/-- `start(c)` (R422). -/
def timerStart (c : Int) (s : State) : State := onChannel c TimerChannel.start s

/-- `stop(c)` (R423). -/
def timerStop (c : Int) (s : State) : State := onChannel c TimerChannel.stop s

/-- `tick(c)` (R424). -/
def timerTick (c : Int) (s : State) : State := onChannel c TimerChannel.tick s

/-- Channel 0, the channel the instructions use (R420); there is always one (log 15). -/
def State.channel0 (s : State) : TimerChannel := s.timers.headD TimerChannel.reset

/-! ## Output devices -/

/-- `dev[d].on` (R45). -/
def Devices.get (ds : Devices) : Device → Bool
  | .LED1 => ds.LED1 | .LED2 => ds.LED2 | .LED3 => ds.LED3
  | .Fan1 => ds.Fan1 | .Fan2 => ds.Fan2 | .Fan3 => ds.Fan3

/-- `dev[d].on <- b` (R45). -/
def Devices.set (ds : Devices) (d : Device) (b : Bool) : Devices :=
  match d with
  | .LED1 => { ds with LED1 := b } | .LED2 => { ds with LED2 := b } | .LED3 => { ds with LED3 := b }
  | .Fan1 => { ds with Fan1 := b } | .Fan2 => { ds with Fan2 := b } | .Fan3 => { ds with Fan3 := b }

/-! ## The tick coupling (R336) -/

/-- The counter value a tick rule names. -/
def tickValue : Config.TickValue → Word
  | .two => 2
  | .three => 3
  | .five => 5

/-- The device a tick rule drives. -/
def tickDevice : Config.TickDevice → Device
  | .LED3 => .LED3
  | .Fan3 => .Fan3

/-- What a tick rule makes of its device's state. -/
def tickAction (act : Config.TickAction) (on : Bool) : Bool :=
  match act with
  | .on => true
  | .off => false
  | .invert => !on

/-- One tick rule at the sampled counter value. -/
def applyTickRule (c : Word) (ds : Devices) (r : Config.TickRule) : Devices :=
  if c = tickValue r.value then
    ds.set (tickDevice r.device) (tickAction r.action (ds.get (tickDevice r.device)))
  else ds

/-- The counter value the coupling samples. -/
def sampledCounter (sample : Config.TickSample) (before after : Word) : Word :=
  match sample with
  | .before => before
  | .after => after

/-- `TickCoupling(before, after, wasRun)` for a setting of `P_TICK_RULES` (R336). -/
def tickCoupling (p : Config.TickRules) (before after : Word) (wasRun : Bool) (ds : Devices) : Devices :=
  if decide (p.gate = .always) || wasRun then
    p.rules.foldl (applyTickRule (sampledCounter p.sample before after)) ds
  else ds

end Sys2Proof.Machine
end

