-- ==== Sys2Proof/Machine/Peripheral.lean ====
section
/-! DEFINITION. The peripheral-forwarding instructions (45_peripheral.md, R330 to R340): each performs the device
operations its rule lists, in order. -/

namespace Sys2Proof.Machine

/-- VOICE for a setting of `P_VOICE_MAP` (R330). -/
def voiceWith (m : VoiceCode → Device × Bool) (arg : VoiceArg) (s : State) : State :=
  match arg with
  | .code c => { s with devices := s.devices.set (m c).1 (m c).2 }
  | .unknown t => s.emit (.unknownCommand t)

/-- VOICE (R330; log 2). -/
def execVoice (arg : VoiceArg) (s : State) : Result := .next (voiceWith Config.voiceMap arg s)

/-- STATUS (R331): a report, no state change; the "optional value" is not modelled (N14). -/
def execStatus (arg : DeviceArg) (s : State) : Result :=
  match arg with
  | .device d => .next (s.emit (.statusReport d (s.devices.get d)))
  | .unknown t => .next (s.emit (.unknownDevice t))

/-- CONFIG_TIMER (R332). -/
def execConfigTimer (mode : Int) (value : Word) (s : State) : Result := .next (timerConfigure 0 mode value s)

/-- START_TIMER (R333). -/
def execStartTimer (s : State) : Result := .next (timerStart 0 s)

/-- STOP_TIMER (R334). -/
def execStopTimer (s : State) : Result := .next (timerStop 0 s)

/-- TICK_TIMER for a setting of `P_TICK_RULES` (R335, R336). -/
def tickTimerWith (p : Config.TickRules) (s : State) : State :=
  let t := timerTick 0 s
  { t with devices := tickCoupling p s.channel0.counter t.channel0.counter s.channel0.running t.devices }

/-- TICK_TIMER (R335; log 2). -/
def execTickTimer (s : State) : Result := .next (tickTimerWith Config.tickRules s)

/-- The address selected, the write gating asserted, the byte written (R337, R338). -/
def writeRegister (a : Int × Int) (b : Byte) (s : State) : State :=
  ppiWrite b (ppiSetLines true false false (ppiSetAddress a.1 a.2 s))

/-- The address selected, the read gating asserted, the register read (R339). -/
def readRegister (a : Int × Int) (s : State) : State :=
  ppiRead (ppiSetLines false true false (ppiSetAddress a.1 a.2 s))

/-- WRITE_CTRL (R337). -/
def execWriteCtrl (b : Byte) (s : State) : Result := .next (writeRegister (1, 1) b s)

/-- WRITE_PORT (R338). -/
def execWritePort (arg : PortArg) (b : Byte) (s : State) : Result :=
  match arg with
  | .port p => .next (writeRegister (portAddress p) b s)
  | .unknown t => .next (s.emit (.invalidPort t))

/-- READ_PORT (R339). -/
def execReadPort (arg : PortArg) (s : State) : Result :=
  match arg with
  | .port p => .next (readRegister (portAddress p) s)
  | .unknown t => .next (s.emit (.invalidPort t))

end Sys2Proof.Machine
end

