-- ==== Sys2Proof/Machine/HostOps.lean ====
section
/-! DEFINITION. The device operations as the host calls them on a standalone device (R403, R506). No step calls them: the
host makes no move during a run (R403, D44; log 10). The other two interactions of R506 are `State.launch`, which starts a
run, and reading any field of State. -/

namespace Sys2Proof.Machine

/-- A controller instance: the one of a single configuration, or the master, is `master` (R440). -/
inductive PicId
  | master | slave
  deriving DecidableEq, Repr

/-- A PIC operation with its argument (R441 to R447). -/
inductive PicOp
  | request (k : Int)
  | mask (k : Int)
  | unmask (k : Int)
  | check
  | acknowledge (k : Int)
  | endOfInterrupt (k : Int)
  | rotatePriority
  deriving DecidableEq, Repr

/-- A device operation with its arguments (R403). -/
inductive HostOp
  | timerConfigure (c mode : Int) (n : Word)
  | timerStart (c : Int)
  | timerStop (c : Int)
  | timerTick (c : Int)
  | ppiSetAddress (a1 a0 : Int)
  | ppiSetLines (rd wr cs : Bool)
  | ppiWrite (b : Byte)
  | ppiRead
  | ppiGetData
  | ppiConfigurePorts
  | pic (which : PicId) (op : PicOp)
  deriving DecidableEq, Repr

/-- What a device operation returns to the host (R435, R436, R444). -/
inductive HostAnswer
  | done
  | data (b : Byte)
  | ports (a b c : PortMode)
  | irq (k : Option (Fin 8))
  deriving DecidableEq, Repr

/-- A PIC operation on an ordinary instance. -/
def Pic.apply (op : PicOp) (p : Pic) : Pic × List Diag :=
  match op with
  | .request k => p.request k
  | .mask k => p.mask k
  | .unmask k => p.unmask k
  | .check => (p, [])
  | .acknowledge k => p.acknowledge k
  | .endOfInterrupt k => p.endOfInterrupt k
  | .rotatePriority => (p.rotate, [])

/-- A PIC operation on the master: `request` and `acknowledge` are overridden (R449). -/
def PicPair.applyMaster (op : PicOp) (q : PicPair) : PicPair × List Diag :=
  match op with
  | .request k => q.masterRequest k
  | .acknowledge k => q.masterAcknowledge k
  | .mask k => q.onMaster (Pic.mask k)
  | .unmask k => q.onMaster (Pic.unmask k)
  | .check => (q, [])
  | .endOfInterrupt k => q.onMaster (Pic.endOfInterrupt k)
  | .rotatePriority => q.onMaster (fun p => (p.rotate, []))

/-- The instance an operation acts on; a single configuration has no slave. -/
def PicSystem.controller? (which : PicId) : PicSystem → Option Pic
  | .single c => if which = .master then some c else none
  | .masterSlave q => some (if which = .master then q.master else q.slave)

/-- A PIC operation on the configuration; a slave that does not exist is not changed. -/
def PicSystem.apply (which : PicId) (op : PicOp) : PicSystem → PicSystem × List Diag
  | .single c =>
    match which with
    | .master => (.single (c.apply op).1, (c.apply op).2)
    | .slave => (.single c, [])
  | .masterSlave q =>
    match which with
    | .master => (.masterSlave (q.applyMaster op).1, (q.applyMaster op).2)
    | .slave => (.masterSlave (q.onSlave (Pic.apply op)).1, (q.onSlave (Pic.apply op)).2)

/-- The answer of a PIC operation: `check` names an IRQ or none (R444). -/
def picAnswer (op : PicOp) (c : Pic) : HostAnswer :=
  match op with
  | .check => .irq c.check
  | .request _ => .done
  | .mask _ => .done
  | .unmask _ => .done
  | .acknowledge _ => .done
  | .endOfInterrupt _ => .done
  | .rotatePriority => .done

/-- A device operation of the host on the devices of `s`, with its answer; `none` where it names an instance the
configuration does not hold (log 10). -/
def hostOp (op : HostOp) (s : State) : Option (State × HostAnswer) :=
  match op with
  | .timerConfigure c mode n => some (timerConfigure c mode n s, .done)
  | .timerStart c => some (timerStart c s, .done)
  | .timerStop c => some (timerStop c s, .done)
  | .timerTick c => some (timerTick c s, .done)
  | .ppiSetAddress a1 a0 => some (ppiSetAddress a1 a0 s, .done)
  | .ppiSetLines rd wr cs => some (ppiSetLines rd wr cs s, .done)
  | .ppiWrite b => some (ppiWrite b s, .done)
  | .ppiRead => some (ppiRead s, .done)
  | .ppiGetData => some (s, .data (ppiGetData s))
  | .ppiConfigurePorts =>
    let r := ppiConfigurePorts Config.ppiModeField s
    some (r.1, .ports r.2.1 r.2.2.1 r.2.2.2)
  | .pic which o =>
    match s.pic.controller? which with
    | none => none
    | some c =>
      let r := s.pic.apply which o
      some (({ s with pic := r.1 }).emitAll r.2, picAnswer o c)

end Sys2Proof.Machine
end

