-- ==== Sys2Proof/Machine/Strings.lean ====
section
/-! DEFINITION. The string instructions, STC and CLC (43_string_flag.md, R289 to R295). -/

namespace Sys2Proof.Machine

/-- `delta(w)`: up by the width, down where DF is set (R289). -/
def delta (w : Word) (s : State) : Word := if s.flags.DF then -w else w

/-- SI and DI moved by the width, modulo 65536 (R289). -/
def State.stepPointers (s : State) (w : Word) : State :=
  let d := delta w s
  (s.setReg .SI (s.getReg .SI + d)).setReg .DI (s.getReg .DI + d)

/-- The address SI holds, the source of a string instruction (R33). -/
def State.siAddr (s : State) : Int := (s.getReg .SI).toNat

/-- The address DI holds, the destination of a string instruction (R33). -/
def State.diAddr (s : State) : Int := (s.getReg .DI).toNat

/-- The flags of ALU_SUB, its result discarded (R292). -/
def State.compare (s : State) (a b : Word) : State := s.setFlags (aluSub a b (carryIn s.flags) s.flags).flags

/-- MOVSB (R290). -/
def execMovsb (s : State) : Result :=
  commit s (do
    let b ← s.memRead1 s.siAddr
    let t ← s.memWrite1 s.diAddr b
    .ok (t.stepPointers 1))

/-- MOVSW (R291): both source bytes are read before either is written. -/
def execMovsw (s : State) : Result :=
  commit s (do
    let v ← s.memRead2 s.siAddr
    let t ← s.memWrite2 s.diAddr v
    .ok (t.stepPointers 2))

/-- CMPSB (R292). -/
def execCmpsb (s : State) : Result :=
  commit s (do
    let a ← s.memRead1 s.siAddr
    let b ← s.memRead1 s.diAddr
    .ok ((s.compare (zext a) (zext b)).stepPointers 1))

/-- CMPSW (R293). -/
def execCmpsw (s : State) : Result :=
  commit s (do
    let a ← s.memRead2 s.siAddr
    let b ← s.memRead2 s.diAddr
    .ok ((s.compare a b).stepPointers 2))

/-- STC (R294). -/
def execStc (s : State) : Result := .next (s.setFlags { s.flags with CF := true })

/-- CLC (R295). -/
def execClc (s : State) : Result := .next (s.setFlags { s.flags with CF := false })

end Sys2Proof.Machine
end

