-- ==== Sys2Proof/Machine/Dispatch.lean ====
section
/-! DEFINITION. The dispatch: one arm per constructor of Instr, one direct call each. -/

namespace Sys2Proof.Machine

def exec (i : Instr) (s : State) : Host.Outcome State Fault Refusal :=
  match i with
  | .mov dst src => Sys2Proof.Machine.execMov dst src s
  | .add dst src => Sys2Proof.Machine.execAdd dst src s
  | .sub dst src => Sys2Proof.Machine.execSub dst src s
  | .mul dst src => Sys2Proof.Machine.execMul dst src s
  | .div dst src => Sys2Proof.Machine.execDiv dst src s
  | .and dst src => Sys2Proof.Machine.execAnd dst src s
  | .or dst src => Sys2Proof.Machine.execOr dst src s
  | .xor dst src => Sys2Proof.Machine.execXor dst src s
  | .not dst => Sys2Proof.Machine.execNot dst s
  | .push src => Sys2Proof.Machine.execPush src s
  | .pop dst => Sys2Proof.Machine.execPop dst s
  | .jmp tgt => Sys2Proof.Machine.execJmp tgt s
  | .call tgt => Sys2Proof.Machine.execCall tgt s
  | .ret => Sys2Proof.Machine.execRet s
  | .hlt => Sys2Proof.Machine.execHlt s
  | .movsb => Sys2Proof.Machine.execMovsb s
  | .movsw => Sys2Proof.Machine.execMovsw s
  | .cmpsb => Sys2Proof.Machine.execCmpsb s
  | .cmpsw => Sys2Proof.Machine.execCmpsw s
  | .stc => Sys2Proof.Machine.execStc s
  | .clc => Sys2Proof.Machine.execClc s
  | .dotCode => Sys2Proof.Machine.execDotCode s
  | .dotData => Sys2Proof.Machine.execDotData s
  | .dotStack => Sys2Proof.Machine.execDotStack s
  | .db label value => Sys2Proof.Machine.execDb label value s
  | .dw label value => Sys2Proof.Machine.execDw label value s
  | .dd label value => Sys2Proof.Machine.execDd label value s
  | .proc name => Sys2Proof.Machine.execProc name s
  | .endp => Sys2Proof.Machine.execEndp s
  | .voice code => Sys2Proof.Machine.execVoice code s
  | .status dev => Sys2Proof.Machine.execStatus dev s
  | .configTimer mode value => Sys2Proof.Machine.execConfigTimer mode value s
  | .startTimer => Sys2Proof.Machine.execStartTimer s
  | .stopTimer => Sys2Proof.Machine.execStopTimer s
  | .tickTimer => Sys2Proof.Machine.execTickTimer s
  | .writeCtrl b => Sys2Proof.Machine.execWriteCtrl b s
  | .writePort port b => Sys2Proof.Machine.execWritePort port b s
  | .readPort port => Sys2Proof.Machine.execReadPort port s
  | .label name => Sys2Proof.Machine.execLabel name s
  | .empty => Sys2Proof.Machine.execEmpty s
  | .unknown tok => Sys2Proof.Machine.execUnknown tok s

end Sys2Proof.Machine
end

