-- ==== Sys2Proof/Machine/Step.lean ====
section
/-! DEFINITION. One step of the CORE (R250), and a line placed where the next step fetches it. -/

namespace Sys2Proof.Machine

/-- One step (R250). Only a running machine takes one; a stop state is final and stays as it is (R39; log 6). -/
def step (s : State) : Host.Outcome State Fault Refusal :=
  match s.status with
  | .running =>
    match s.fetch with
    | none => .next s.overrun
    | some line =>
      match decode line with
      | .ok i => finish (exec i s)
      | .error _ => finish (.next (s.raise (.decode line)))
  | .halted => .next s
  | .overrun => .next s
  | .error _ => .next s

/-- The line of `nbits` bits `w` placed at the index IP holds, and the machine running, so that the next step fetches it:
the program is loaded from outside the machine (R502; log 1). -/
def State.withFetchWord (s : State) (nbits w : Nat) : State :=
  { s with
    status := .running
    program := placeLine (lineOfBits nbits w) (s.getReg .IP).toNat s.program }

end Sys2Proof.Machine
end

