-- ==== Sys2Proof/Safety.lean ====
section
/-! DEFINITION. What counts as a safe run and as a legal state, and the frame predicates the statements use. -/

namespace Sys2Proof.Machine

/-- The run has not ended in a fatal error (R39, R402). 93 I3: a claim about a successful run takes this as a premise. -/
def State.Safe (s : State) : Prop := s.failed = false

/-! ## The invariant of the machine's data -/

/-- A priority order lists each of the eight IRQs once (R48). -/
def Pic.Ordered (p : Pic) : Prop := p.prio.Perm [0, 1, 2, 3, 4, 5, 6, 7]

/-- Every controller the configuration holds has a legal priority order (R48). -/
def PicSystem.Ordered : PicSystem → Prop
  | .single c => c.Ordered
  | .masterSlave q => q.master.Ordered ∧ q.slave.Ordered

/-- Which configuration of controllers the state holds (R48, R440). -/
def PicSystem.cascade : PicSystem → Config.PicCascade
  | .single _ => .single
  | .masterSlave _ => .masterSlave

/-- The invariant of a legal state. -/
structure State.Inv (s : State) : Prop where
  /-- Data memory is in its canonical form, below `P_MEM_SIZE` (R49, R80). -/
  memory   : Memory.wf s.mem = true
  /-- The keys of each table are unique (R41, R42, R43). -/
  dst      : Table.wf s.dst = true
  labels   : Table.wf s.labels = true
  procs    : Table.wf s.procs = true
  /-- PF, DF and IF are false (R36, R37). -/
  pf       : s.flags.PF = false
  df       : s.flags.DF = false
  ifl      : s.flags.IF = false
  /-- There are `P_TIMER_CHANNELS` channels, 0 to `P_TIMER_CHANNELS-1`, at least channel 0 (R420, R425). -/
  channel  : s.timers.length = Config.timerChannels
  /-- A running channel has a counter above 0 (R426). -/
  counting : ∀ ch ∈ s.timers, ch.running = true → ch.counter ≠ 0
  /-- The priority orders are permutations of 0 to 7 (R48). -/
  priority : s.pic.Ordered
  /-- The controllers are those of `P_PIC_CASCADE` (R440). -/
  cascade  : s.pic.cascade = Config.picCascade
  /-- `L` is at most 65536 (R9, R502; log 17). -/
  length   : s.program.length ≤ 65536

/-! ## Frames -/

/-- Every register outside `P` is unchanged. -/
def SameRegsExcept (P : Reg → Prop) (s t : State) : Prop := ∀ r, ¬P r → t.getReg r = s.getReg r

/-- Every byte of memory whose address is outside `P` reads as before. -/
def SameBytesExcept (P : Nat → Prop) (s t : State) : Prop := ∀ a, ¬P a → t.readByte a = s.readByte a

/-- The address `a` is one of the two bytes a word store through `d` writes. -/
def Dest.Covers (d : Option Dest) (a : Nat) : Prop := ∃ x : Int, d = some (.memory x) ∧ ((a : Int) = x ∨ (a : Int) = x + 1)

/-- The timer, the PPI and the interrupt controllers are unchanged. -/
def SameUnits (s t : State) : Prop := t.timers = s.timers ∧ t.ppi = s.ppi ∧ t.pic = s.pic

/-- The Label and Procedure Tables are unchanged. -/
def SameTargets (s t : State) : Prop := t.labels = s.labels ∧ t.procs = s.procs

/-- The status is unchanged, or a fatal error was raised. -/
def SameStatusOrError (s t : State) : Prop := t.status = s.status ∨ ∃ e, t.status = .error e

end Sys2Proof.Machine
end

