-- ==== Sys2Proof/Certificates/Slice0/Obligations.lean ====
section
/-! DEFINITION. The statements for the provers. A docstring names the rule a statement formalises and, where the rule
rests on a decision of the spec (92_eei_decisions.md) or on a choice of the model, the decision or the log entry. -/

open Sys2Proof
open Sys2Proof.Machine

/-! ## Reset and the fetch loop -/

/-- What reset leaves, for a run of any program `p` (R52, R500, R502; decisions D26, D29, D32, D36, D40): every register 0,
every flag false, Running, no segment, empty tables, stack and diagnostics, memory all 0, devices off, `P_TIMER_CHANNELS`
stopped channels, the PPI idle, every controller clear, the program the one given, and line 0 the first one fetched.
`State.reset` is the launch of the empty program (log 1). -/
def Obligations.ResetLeavesSpecValues : Prop :=
  State.reset = State.launch [] ∧
  ∀ p : List Line,
  (State.launch p).program = p ∧
  (State.launch p).fetch = p[0]? ∧
  (∀ r, (State.launch p).getReg r = 0) ∧
  (State.launch p).flags = { CF := false, PF := false, ZF := false, SF := false, OF := false, DF := false, IF := false } ∧
  (State.launch p).status = .running ∧
  (State.launch p).segment = .none ∧
  (∀ k, (State.launch p).dst.find? k = none ∧ (State.launch p).labels.find? k = none ∧
    (State.launch p).procs.find? k = none) ∧
  (State.launch p).cstack = [] ∧
  (∀ a, (State.launch p).readByte a = 0) ∧
  (∀ d, (State.launch p).devices.get d = false) ∧
  (State.launch p).timers = List.replicate Config.timerChannels
    { ctrl := 0, counter := 0, initial := 0, mode := 0, running := false } ∧
  (State.launch p).ppi = { ctrl := 0, portA := 0, portB := 0, portC := 0, a1 := false, a0 := false,
                           rd := true, wr := true, cs := true, data := 0 } ∧
  (∀ c : Pic, c = { IRR := 0, ISR := 0, IMR := 0, prio := [0, 1, 2, 3, 4, 5, 6, 7], nested := 0, ackLine := false } →
    (State.launch p).pic = (match Config.picCascade with
      | .single => .single c
      | .masterSlave => .masterSlave { master := c, cascadePending := false, slave := c })) ∧
  (State.launch p).diags = []

/-- A step runs the decoded line: `step` is `exec` of it with the loop's work after it, IP plus 1 modulo 65536, but for a
fatal error, after which IP keeps the line's index (R250, R251, R402; decisions D16, D17). -/
def Obligations.StepRunsDecodedLine : Prop :=
  ∀ (s : State) (line : Line) (i : Instr), s.status = .running → s.program[(s.getReg .IP).toNat]? = some line →
    decode line = .ok i →
    step s = finish (exec i s) ∧
    (∀ t, exec i s = .next t → t.Safe → step s = .next (t.setReg .IP (t.getReg .IP + 1))) ∧
    (∀ t, exec i s = .next t → ¬t.Safe → step s = .next t)

/-- Where a step runs no instruction: IP not below `L` ends the run with Overrun and no other change, a malformed line ends
it with DecodeError and IP at the line, a stop state stays as it is (R39, R250, R402; decisions D16, D17, D55; log 6). -/
def Obligations.StepWithoutInstruction : Prop :=
  (∀ s : State, s.status = .running → s.program.length ≤ (s.getReg .IP).toNat →
    step s = .next { s with status := .overrun }) ∧
  (∀ (s : State) (line : Line) (e : DecodeReject), s.status = .running →
    s.program[(s.getReg .IP).toNat]? = some line → decode line = .error e →
    step s = .next { s with status := .error (.decode line) }) ∧
  (∀ s : State, s.status ≠ .running → step s = .next s)

/-- The invariant `State.Inv` is kept by every step, from every state that meets it: memory and tables canonical, PF, DF
and IF false, `P_TIMER_CHANNELS` channels, running channels above 0, the controllers of `P_PIC_CASCADE` with legal priority
orders, at most 65536 lines. -/
def Obligations.StepKeepsInvariant : Prop :=
  ∀ s t : State, s.Inv → step s = .next t → t.Inv

/-- The invariant holds at reset, and at the launch of every program of at most 65536 lines (R502). -/
def Obligations.ResetMeetsInvariant : Prop :=
  State.reset.Inv ∧ ∀ p : List Line, p.length ≤ 65536 → (State.launch p).Inv

/-- Every device operation of the host keeps the invariant (R421 to R449). -/
def Obligations.HostOperationKeepsInvariant : Prop :=
  ∀ (op : HostOp) (s t : State) (a : HostAnswer), s.Inv → hostOp op s = some (t, a) → t.Inv

/-- The program is not state the CORE can write (R50): no instruction and no step changes it. -/
def Obligations.ProgramNeverWritten : Prop :=
  (∀ (i : Instr) (s t : State), exec i s = .next t → t.program = s.program) ∧
  (∀ s t : State, step s = .next t → t.program = s.program)

/-- PF is never computed (R37): it is false at reset, no instruction and no step changes it, so it stays false. -/
def Obligations.ParityNeverComputed : Prop :=
  State.reset.flags.PF = false ∧
  (∀ (i : Instr) (s t : State), exec i s = .next t → t.flags.PF = s.flags.PF) ∧
  (∀ s t : State, s.flags.PF = false → step s = .next t → t.flags.PF = false)

/-- No interrupt reaches the CPU: a step neither reads nor writes IF or the interrupt controllers (R36, R403, R410;
decisions D27, D44). Two machines that differ only there take the same step. -/
def Obligations.NoInterruptReachesCpu : Prop :=
  ∀ (s t : State) (b : Bool) (p : PicSystem), step s = .next t →
    t.flags.IF = s.flags.IF ∧ t.pic = s.pic ∧
    step { s with flags := { s.flags with IF := b }, pic := p } =
      .next { t with flags := { t.flags with IF := b }, pic := p }

/-- The diagnostic stream is output only (R51, R409; decision D48): a step appends to it and no rule reads it. -/
def Obligations.DiagnosticsOutputOnly : Prop :=
  ∀ s t : State, step s = .next t →
    ∃ ds, t.diags = s.diags ++ ds ∧
      ∀ old, step { s with diags := old } = .next { t with diags := old ++ ds }

/-! ## Encoding -/

/-- The worked encodings of R144: their tokens, and the instruction each decodes to. -/
def Obligations.WorkedEncodingsDecode : Prop :=
  tokenize ['M', 'O', 'V', ' ', 'A', 'X', ' ', '5'] = [['M', 'O', 'V'], ['A', 'X'], ['5']] ∧
  decode ['M', 'O', 'V', ' ', 'A', 'X', ' ', '5'] = .ok (.mov ⟨['A', 'X'], .reg .AX⟩ ⟨['5'], .imm 5⟩) ∧
  decode ['C', 'O', 'N', 'F', 'I', 'G', '_', 'T', 'I', 'M', 'E', 'R', ' ', '1', ' ', '3'] = .ok (.configTimer 1 3) ∧
  decode ['W', 'R', 'I', 'T', 'E', '_', 'P', 'O', 'R', 'T', ' ', 'A', ' ', '0', 'F'] = .ok (.writePort (.port .A) 0x0F) ∧
  decode ['R', 'E', 'A', 'D', '_', 'P', 'O', 'R', 'T', ' ', 'A'] = .ok (.readPort (.port .A)) ∧
  decode ['H', 'L', 'T'] = .ok .hlt

/-- A few more words of each family, written out from R101 to R107 and R140. -/
def Obligations.FamilyWordsDecode : Prop :=
  decode ['A', 'D', 'D', '\t', '[', '1', '6', ']', ' ', '-', '1', ' ', ';', 'x'] =
    .ok (.add ⟨['[', '1', '6', ']'], .direct 16⟩ ⟨['-', '1'], .imm (-1)⟩) ∧
  decode ['P', 'O', 'P', ' ', '[', 'B', 'X', '+', 'S', 'I', ']'] =
    .ok (.pop ⟨['[', 'B', 'X', '+', 'S', 'I', ']'], .indexed .BX .SI⟩) ∧
  decode ['N', 'O', 'T', ' ', '[', 'I', 'P', '+', '-', '2', ']'] =
    .ok (.not ⟨['[', 'I', 'P', '+', '-', '2', ']'], .ipRel (-2)⟩) ∧
  decode ['M', 'O', 'V', 'S', 'W'] = .ok .movsw ∧
  decode ['.', 'S', 'T', 'A', 'C', 'K', ' ', '1', '0', '0'] = .ok .dotStack ∧
  decode ['D', 'B', ' ', 'X', ' ', '3', '0', '0'] = .ok (.db ['X'] 300) ∧
  decode ['V', 'O', 'I', 'C', 'E', ' ', '1', '2'] = .ok (.voice (.code .v12)) ∧
  decode ['L', '1', ':', ' ', 'M', 'O', 'V'] = .ok (.label ['L', '1']) ∧
  decode [' ', ' ', ';', 'H', 'L', 'T'] = .ok .empty ∧
  decode ['m', 'o', 'v', ' ', 'A', 'X', ' ', '5'] = .ok (.unknown ['m', 'o', 'v']) ∧
  decode ['M', 'O', 'V', ' ', 'A', 'X', ',', '5'] = .error (.tokenCount .mov)

/-- The classes of R102 in their order (decision D19): empty, label, mnemonic, unknown. -/
def Obligations.LinesAreClassified : Prop :=
  ∀ line : Line,
    (tokenize line = [] → decode line = .ok .empty) ∧
    (∀ t ops, tokenize line = t :: ops → t.getLast? = some ':' → decode line = .ok (.label t.dropLast)) ∧
    (∀ (m : Mnemonic) ops, tokenize line = m.text :: ops → decode line = decodeOperands m ops) ∧
    (∀ t ops, tokenize line = t :: ops → t.getLast? ≠ some ':' → (∀ m : Mnemonic, m.text ≠ t) →
      decode line = .ok (.unknown t))

/-- The decode checks of R141 (decision D18): a wrong token count, a `dec` or `hex8` operand that is no literal, a
CONFIG_TIMER value outside 0 to 65535. -/
def Obligations.MalformedLinesRejected : Prop :=
  (∀ (m : Mnemonic) ops, m ∈ [Mnemonic.ret, .hlt, .movsb, .movsw, .cmpsb, .cmpsw, .stc, .clc, .startTimer, .stopTimer,
      .tickTimer] → ops ≠ [] → decodeOperands m ops = .error (.tokenCount m)) ∧
  (∀ (m : Mnemonic) (ops : List Token), m ∈ [Mnemonic.not, .push, .pop, .jmp, .call, .proc, .voice, .status, .writeCtrl,
      .readPort] → ops.length ≠ 1 → decodeOperands m ops = .error (.tokenCount m)) ∧
  (∀ (m : Mnemonic) (ops : List Token), m ∈ [Mnemonic.mov, .add, .sub, .mul, .div, .and, .or, .xor, .db, .dw, .dd,
      .configTimer, .writePort] → ops.length ≠ 2 → decodeOperands m ops = .error (.tokenCount m)) ∧
  (∀ (m : Mnemonic) l v, m ∈ [Mnemonic.db, .dw, .dd] → decimal? v = none →
      decodeOperands m [l, v] = .error (.notDecimal m)) ∧
  (∀ a b, (decimal? a = none ∨ decimal? b = none) → decodeOperands .configTimer [a, b] = .error (.notDecimal .configTimer)) ∧
  (∀ b, hexByte? b = none → decodeOperands .writeCtrl [b] = .error (.notHexByte .writeCtrl)) ∧
  (∀ p b, hexByte? b = none → decodeOperands .writePort [p, b] = .error (.notHexByte .writePort)) ∧
  (∀ a b m n, decimal? a = some m → decimal? b = some n → (n < 0 ∨ 65535 < n) →
      decodeOperands .configTimer [a, b] = .error .valueRange)

/-- Decoding an encoded instruction gives it back, for every well-formed instruction: no token, literal value or operand
form is dropped. -/
def Obligations.DecodeEncodeRoundTrip : Prop :=
  ∀ i : Instr, i.wf = true → decode (encode i) = .ok i

/-! ## Operands -/

/-- `ReadOp` by its modes (R120, R125, R126; decisions D3, D10). -/
def Obligations.ReadOperandModes : Prop :=
  ∀ (o : Operand) (s : State),
    (∀ v, o.form = .imm v → readOp o s = .ok (BitVec.ofInt 16 v)) ∧
    (∀ r, o.form = .reg r → readOp o s = .ok (s.getReg r)) ∧
    (∀ v, (∀ n, o.form ≠ .imm n) → (∀ r, o.form ≠ .reg r) → s.dst.find? o.tok = some v → readOp o s = .ok v) ∧
    (s.dst.find? o.tok = none →
      (∀ n, o.form = .direct n → readOp o s = s.memRead2 n) ∧
      (∀ r, o.form = .indirect r → readOp o s = s.memRead2 (s.getReg r).toNat))

/-- A token no mode of `ReadOp` accepts raises AddressingError (R121): base+index and IP-relative tokens, and every word
that is no key of the Data Segment Table, `AL` and `FOO` among them. -/
def Obligations.UnreadableTokensRaise : Prop :=
  (∀ (t : Token) (s : State), s.dst.find? t = none →
    (formOf t = .other ∨ (∃ n, formOf t = .ipRel n) ∨ (∃ r1 r2, formOf t = .indexed r1 r2)) →
    readOp (operandOf t) s = .error (.addressing (.token t))) ∧
  (∀ (t : Token) (s : State), t ∈ [['A', 'L'], ['F', 'O', 'O']] → s.dst.find? t = none →
    readOp (operandOf t) s = .error (.addressing (.token t)))

/-- A label operand reads its entry, but a key spelled like a decimal literal or a register is never read as a label
(R124). -/
def Obligations.LabelsReadAfterLiteralsAndRegisters : Prop :=
  ∀ (t : Token) (s : State),
    (∀ v, s.dst.find? t = some v → decimal? t = none → (∀ r : Reg, r.text ≠ t) → readOp (operandOf t) s = .ok v) ∧
    (∀ n, decimal? t = some n → readOp (operandOf t) s = .ok (BitVec.ofInt 16 n)) ∧
    (∀ r : Reg, r.text = t → readOp (operandOf t) s = .ok (s.getReg r))

/-- `WriteOp` by its modes (R127 to R130; decisions D11, D12): base+index and IP-relative addresses are unbounded sums; a
literal, or a word that is no key, is not writable. -/
def Obligations.WriteOperandModes : Prop :=
  ∀ (o : Operand) (v : Word) (s : State),
    (∀ n, o.form = .imm n → writeOp o v s = .error (.addressing (.token o.tok))) ∧
    (∀ r, o.form = .reg r → writeOp o v s = .ok (s.setReg r v)) ∧
    (∀ w, (∀ n, o.form ≠ .imm n) → (∀ r, o.form ≠ .reg r) → s.dst.find? o.tok = some w →
      writeOp o v s = .ok { s with dst := s.dst.insert o.tok v }) ∧
    (s.dst.find? o.tok = none →
      (∀ n, o.form = .direct n → writeOp o v s = s.memWrite2 n v) ∧
      (∀ r, o.form = .indirect r → writeOp o v s = s.memWrite2 (s.getReg r).toNat v) ∧
      (∀ r1 r2, o.form = .indexed r1 r2 →
        writeOp o v s = s.memWrite2 (((s.getReg r1).toNat + (s.getReg r2).toNat : Nat) : Int) v) ∧
      (∀ n, o.form = .ipRel n → writeOp o v s = s.memWrite2 ((s.getReg .IP).toNat + n) v) ∧
      (o.form = .other → writeOp o v s = .error (.addressing (.token o.tok))))

/-- `Target`: the Label Table, then the Procedure Table, then a decimal literal, else AddressingError (R131; decision D14). -/
def Obligations.TargetLookupOrder : Prop :=
  ∀ (o : Operand) (s : State),
    (∀ v, s.labels.find? o.tok = some v → target o s = .ok v) ∧
    (∀ v, s.labels.find? o.tok = none → s.procs.find? o.tok = some v → target o s = .ok v) ∧
    (s.labels.find? o.tok = none → s.procs.find? o.tok = none →
      (∀ n, o.form = .imm n → target o s = .ok (BitVec.ofInt 16 n)) ∧
      ((∀ n, o.form ≠ .imm n) → target o s = .error (.addressing (.token o.tok))))

/-! ## Memory -/

/-- The four primitives (R82 to R85): the range check, and the big-endian bytes each reads or writes. -/
def Obligations.MemoryPrimitives : Prop :=
  ∀ (s : State) (a : Int),
    (¬(0 ≤ a ∧ a ≤ 255) → s.memRead1 a = .error (.addressing (.address a)) ∧
      ∀ b, s.memWrite1 a b = .error (.addressing (.address a))) ∧
    (¬(0 ≤ a ∧ a + 1 ≤ 255) → s.memRead2 a = .error (.addressing (.address a)) ∧
      ∀ v, s.memWrite2 a v = .error (.addressing (.address a))) ∧
    (0 ≤ a ∧ a ≤ 255 → s.memRead1 a = .ok (s.readByte a.toNat) ∧
      ∀ b, ∃ t, s.memWrite1 a b = .ok t ∧
        ∀ x, t.readByte x = if x = a.toNat then b else s.readByte x) ∧
    (0 ≤ a ∧ a + 1 ≤ 255 →
      (∃ v, s.memRead2 a = .ok v ∧
        v.toNat = 256 * (s.readByte a.toNat).toNat + (s.readByte (a.toNat + 1)).toNat) ∧
      ∀ v : Word, ∃ t, s.memWrite2 a v = .ok t ∧
        ∀ x, (t.readByte x).toNat =
          if x = a.toNat then v.toNat / 256 else if x = a.toNat + 1 then v.toNat % 256 else (s.readByte x).toNat)

/-- A word written reads back, through any state and any pair of overlapping accesses (R87, R93; decisions D10, D11): the
word itself, its low byte one address up, and its high byte one address down. -/
def Obligations.WordReadsBack : Prop :=
  ∀ (s t : State) (a : Int) (v : Word), s.memWrite2 a v = .ok t →
    t.memRead2 a = .ok v ∧
    t.memRead1 a = .ok (v.extractLsb' 8 8) ∧
    t.memRead1 (a + 1) = .ok (v.extractLsb' 0 8) ∧
    ∀ b : Int, (b + 1 < a ∨ a + 1 < b) → t.memRead2 b = s.memRead2 b

/-! ## MOV and the ALU -/

/-- MOV copies the source's value to the destination and writes no flag (R210; decisions D9, D52). -/
def Obligations.MovResult : Prop :=
  ∀ (dst src : Operand) (s t : State) (v : Word), readOp src s = .ok v → writeOp dst v s = .ok t →
    exec (.mov dst src) s = .next t ∧ t.flags = s.flags

/-- ADD (R202, R208, R211; decisions D5, D6, D8): the sum modulo 65536, CF the carry out, OF by the sign test. -/
def Obligations.AddResult : Prop :=
  ∀ (dst src : Operand) (s t : State) (a b : Word), readOp dst s = .ok a → readOp src s = .ok b →
    writeOp dst (a + b) s = .ok t →
    exec (.add dst src) s = .next { t with flags := { s.flags with
      CF := decide (65535 < a.toNat + b.toNat)
      OF := decide (a.msb = b.msb ∧ (a + b).msb ≠ a.msb)
      ZF := decide (a + b = 0)
      SF := (a + b).msb } }

/-- SUB (R203, R208, R212; decisions D5, D7, D8): the difference modulo 65536, CF the borrow, OF by the sign test. -/
def Obligations.SubResult : Prop :=
  ∀ (dst src : Operand) (s t : State) (a b : Word), readOp dst s = .ok a → readOp src s = .ok b →
    writeOp dst (a - b) s = .ok t →
    exec (.sub dst src) s = .next { t with flags := { s.flags with
      CF := decide (a.toNat < b.toNat)
      OF := decide (a.msb ≠ b.msb ∧ (a - b).msb ≠ a.msb)
      ZF := decide (a - b = 0)
      SF := (a - b).msb } }

/-- MUL and DIV (R204, R205, R213, R214; decisions D9, D23): the low 16 bits of the unsigned product, the unsigned
quotient with 0 for a zero divisor; only ZF and SF are written. -/
def Obligations.MulDivResult : Prop :=
  ∀ (dst src : Operand) (s t : State) (a b r : Word), readOp dst s = .ok a → readOp src s = .ok b →
    writeOp dst r s = .ok t →
    (r.toNat = a.toNat * b.toNat % 65536 →
      exec (.mul dst src) s = .next { t with flags := { s.flags with ZF := decide (r = 0), SF := r.msb } }) ∧
    (r.toNat = (if b = 0 then 0 else a.toNat / b.toNat) →
      exec (.div dst src) s = .next { t with flags := { s.flags with ZF := decide (r = 0), SF := r.msb } })

/-- AND, OR, XOR and NOT (R206, R207, R215 to R218; decision D9): bitwise; only ZF and SF are written. -/
def Obligations.LogicResult : Prop :=
  (∀ (dst src : Operand) (s t : State) (a b : Word), readOp dst s = .ok a → readOp src s = .ok b →
    (writeOp dst (a &&& b) s = .ok t →
      exec (.and dst src) s =
        .next { t with flags := { s.flags with ZF := decide (a &&& b = 0), SF := (a &&& b).msb } }) ∧
    (writeOp dst (a ||| b) s = .ok t →
      exec (.or dst src) s =
        .next { t with flags := { s.flags with ZF := decide (a ||| b = 0), SF := (a ||| b).msb } }) ∧
    (writeOp dst (a ^^^ b) s = .ok t →
      exec (.xor dst src) s =
        .next { t with flags := { s.flags with ZF := decide (a ^^^ b = 0), SF := (a ^^^ b).msb } })) ∧
  (∀ (dst : Operand) (s t : State) (a : Word), readOp dst s = .ok a → writeOp dst (~~~a) s = .ok t →
    exec (.not dst) s = .next { t with flags := { s.flags with ZF := decide (~~~a = 0), SF := (~~~a).msb } })

/-- Division by zero is no error (R405): the result is 0 and the run goes on. -/
def Obligations.DivisionByZeroIsDefined : Prop :=
  ∀ (dst src : Operand) (s t : State) (a : Word), readOp dst s = .ok a → readOp src s = .ok 0 →
    writeOp dst 0 s = .ok t →
    exec (.div dst src) s = .next { t with flags := { s.flags with ZF := true, SF := false } } ∧
    (s.Safe → t.Safe)

/-- Which AddressingError a line with operands reports, and what it leaves (R210, R211, R252 to R256, R402, R406; decisions
D17, D52): destination read, source read, destination write, the first failure; nothing else changes, nothing is pushed,
popped or jumped. MOV reads no destination. 93 I3: the spec decides the state after Error; claims beyond status and IP rest
on that decision (log 7). -/
def Obligations.OperandErrorsEndTheRun : Prop :=
  ∀ (dst src : Operand) (s : State) (e : FatalError),
    (∀ i ∈ [Instr.add dst src, .sub dst src, .mul dst src, .div dst src, .and dst src, .or dst src, .xor dst src,
        .not dst], readOp dst s = .error e → exec i s = .next { s with status := .error e }) ∧
    (∀ i ∈ [Instr.add dst src, .sub dst src, .mul dst src, .div dst src, .and dst src, .or dst src, .xor dst src],
      ∀ a, readOp dst s = .ok a → readOp src s = .error e → exec i s = .next { s with status := .error e }) ∧
    (∀ i ∈ [Instr.add dst src, .sub dst src, .mul dst src, .div dst src, .and dst src, .or dst src, .xor dst src],
      ∀ a b, readOp dst s = .ok a → readOp src s = .ok b → (∀ v, writeOp dst v s = .error e) →
        exec i s = .next { s with status := .error e }) ∧
    (∀ a, readOp dst s = .ok a → (∀ v, writeOp dst v s = .error e) →
      exec (.not dst) s = .next { s with status := .error e }) ∧
    (readOp src s = .error e → exec (.mov dst src) s = .next { s with status := .error e }) ∧
    (∀ v, readOp src s = .ok v → writeOp dst v s = .error e →
      exec (.mov dst src) s = .next { s with status := .error e }) ∧
    (readOp src s = .error e → exec (.push src) s = .next { s with status := .error e }) ∧
    (∀ l v, s.cstack = l ++ [v] → writeOp dst v { s with cstack := l } = .error e →
      exec (.pop dst) s = .next { s with status := .error e }) ∧
    (target src s = .error e → exec (.jmp src) s = .next { s with status := .error e } ∧
      exec (.call src) s = .next { s with status := .error e })

/-- The frame of MOV and the ALU instructions (R209, R210 to R218). -/
def Obligations.AluFrame : Prop :=
  ∀ (dst src : Operand) (i : Instr) (s t : State),
    i ∈ [Instr.mov dst src, .add dst src, .sub dst src, .mul dst src, .div dst src, .and dst src, .or dst src,
      .xor dst src, .not dst] →
    exec i s = .next t →
    SameRegsExcept (fun r => dest? dst s = some (.reg r)) s t ∧
    SameBytesExcept (Dest.Covers (dest? dst s)) s t ∧
    (∀ k, dest? dst s ≠ some (.label k) → t.dst.find? k = s.dst.find? k) ∧
    (t.flags.PF = s.flags.PF ∧ t.flags.DF = s.flags.DF ∧ t.flags.IF = s.flags.IF) ∧
    (i ≠ .add dst src → i ≠ .sub dst src → t.flags.CF = s.flags.CF ∧ t.flags.OF = s.flags.OF) ∧
    (i = .mov dst src → t.flags = s.flags) ∧
    SameTargets s t ∧ SameUnits s t ∧ SameStatusOrError s t ∧
    t.devices = s.devices ∧ t.segment = s.segment ∧ t.cstack = s.cstack ∧ t.diags = s.diags ∧ t.program = s.program

/-! ## Stack and control -/

/-- PUSH appends the operand's value to the Call Stack, POP removes the last value and stores it (R252, R253; decisions
D20, D21). -/
def Obligations.PushPopResult : Prop :=
  (∀ (src : Operand) (s : State) (v : Word), readOp src s = .ok v →
    exec (.push src) s = .next { s with cstack := s.cstack ++ [v] }) ∧
  (∀ (dst : Operand) (s t : State) (l : List Word) (v : Word), s.cstack = l ++ [v] →
    writeOp dst v { s with cstack := l } = .ok t → exec (.pop dst) s = .next t ∧ t.cstack = l)

/-- JMP writes target minus 1 to IP, so that the loop's increment makes the target line the next; CALL pushes the line's
index plus 1 and jumps; RET pops into IP (R254, R256, R257; decisions D14, D21). -/
def Obligations.JumpCallReturnResult : Prop :=
  (∀ (tgt : Operand) (s : State) (v : Word), target tgt s = .ok v →
    exec (.jmp tgt) s = .next (s.setReg .IP (v - 1)) ∧
    exec (.call tgt) s = .next ({ s with cstack := s.cstack ++ [s.getReg .IP + 1] }.setReg .IP (v - 1))) ∧
  (∀ (s : State) (l : List Word) (v : Word), s.cstack = l ++ [v] →
    exec .ret s = .next ({ s with cstack := l }.setReg .IP v)) ∧
  (∀ (tgt : Operand) (s : State) (line : Line) (v : Word), target tgt s = .ok v → s.status = .running →
    s.program[(s.getReg .IP).toNat]? = some line → decode line = .ok (.jmp tgt) →
    step s = .next (s.setReg .IP v))

/-- The recoverable errors of the instructions: one diagnostic and no other change, the operand of a POP on an empty stack
not even resolved (R253, R257, R330, R331, R340, R404; decisions D21, D28, D35, D54). -/
def Obligations.RecoverableErrorsOnlyDiagnose : Prop :=
  (∀ (dst : Operand) (s : State), s.cstack = [] →
    exec (.pop dst) s = .next { s with diags := s.diags ++ [.stackUnderflow .POP] } ∧
    exec .ret s = .next { s with diags := s.diags ++ [.stackUnderflow .RET] }) ∧
  (∀ (t : Token) (b : Byte) (s : State),
    exec (.voice (.unknown t)) s = .next { s with diags := s.diags ++ [.unknownCommand t] } ∧
    exec (.status (.unknown t)) s = .next { s with diags := s.diags ++ [.unknownDevice t] } ∧
    exec (.writePort (.unknown t) b) s = .next { s with diags := s.diags ++ [.invalidPort t] } ∧
    exec (.readPort (.unknown t)) s = .next { s with diags := s.diags ++ [.invalidPort t] })

/-- A CALL whose target is a RET line comes back to the CALL's index plus 2, not plus 1, with the Call Stack as it was
(R259, R512, derived there from R251, R256, R257). -/
def Obligations.ReturnSkipsTheLineAfterCall : Prop :=
  ∀ (s : State) (callLine retLine : Line) (tgt : Operand) (v : Word),
    s.status = .running →
    s.program[(s.getReg .IP).toNat]? = some callLine → decode callLine = .ok (.call tgt) → target tgt s = .ok v →
    s.program[v.toNat]? = some retLine → decode retLine = .ok .ret →
    Host.Core.run core 2 s = .next (s.setReg .IP (s.getReg .IP + 2))

/-- HLT ends the run Halted with IP at the line's index plus 1 and nothing else changed (R258; decision D16; log 14). -/
def Obligations.HltResult : Prop :=
  (∀ s : State, exec .hlt s = .next { s with status := .halted }) ∧
  (∀ (s : State) (line : Line), s.status = .running → s.program[(s.getReg .IP).toNat]? = some line →
    decode line = .ok .hlt →
    step s = .next ({ s with status := .halted }.setReg .IP (s.getReg .IP + 1)))

/-- The frame of PUSH, POP, JMP, CALL, RET and HLT (R33, R252 to R258): SP and BP are ordinary registers none of them
writes but a POP that names them. -/
def Obligations.ControlFrame : Prop :=
  ∀ (o : Operand) (i : Instr) (s t : State), i ∈ [Instr.push o, .pop o, .jmp o, .call o, .ret, .hlt] →
    exec i s = .next t →
    SameRegsExcept (fun r => (i = .pop o ∧ dest? o s = some (.reg r)) ∨
      ((i = .jmp o ∨ i = .call o ∨ i = .ret) ∧ r = .IP)) s t ∧
    SameBytesExcept (fun a => i = .pop o ∧ Dest.Covers (dest? o s) a) s t ∧
    (∀ k, ¬(i = .pop o ∧ dest? o s = some (.label k)) → t.dst.find? k = s.dst.find? k) ∧
    ((i = .jmp o ∨ i = .hlt) → t.cstack = s.cstack) ∧
    ((i = .push o ∨ i = .call o) → t.cstack = s.cstack ∨ ∃ v, t.cstack = s.cstack ++ [v]) ∧
    ((i = .pop o ∨ i = .ret) → t.cstack = s.cstack ∨ t.cstack = s.cstack.dropLast) ∧
    (i ≠ .pop o → i ≠ .ret → t.diags = s.diags) ∧
    (i ≠ .hlt → SameStatusOrError s t) ∧
    t.flags = s.flags ∧ SameTargets s t ∧ SameUnits s t ∧ t.devices = s.devices ∧ t.segment = s.segment ∧
    t.program = s.program

/-! ## Strings and flags -/

/-- MOVSB and MOVSW copy a byte or a big-endian word from SI to DI and move both by the width, down where DF is set
(R289 to R291; decisions D11, D25). -/
def Obligations.StringMoves : Prop :=
  ∀ (s : State),
    ((s.getReg .SI).toNat ≤ 255 → (s.getReg .DI).toNat ≤ 255 →
      ∃ t, exec .movsb s = .next t ∧ t.status = s.status ∧
        (∀ x, t.readByte x =
          if x = (s.getReg .DI).toNat then s.readByte (s.getReg .SI).toNat else s.readByte x) ∧
        t.getReg .SI = (if s.flags.DF then s.getReg .SI - 1 else s.getReg .SI + 1) ∧
        t.getReg .DI = (if s.flags.DF then s.getReg .DI - 1 else s.getReg .DI + 1)) ∧
    ((s.getReg .SI).toNat ≤ 254 → (s.getReg .DI).toNat ≤ 254 →
      ∃ t, exec .movsw s = .next t ∧ t.status = s.status ∧
        (∀ x, t.readByte x =
          if x = (s.getReg .DI).toNat then s.readByte (s.getReg .SI).toNat
          else if x = (s.getReg .DI).toNat + 1 then s.readByte ((s.getReg .SI).toNat + 1)
          else s.readByte x) ∧
        t.getReg .SI = (if s.flags.DF then s.getReg .SI - 2 else s.getReg .SI + 2) ∧
        t.getReg .DI = (if s.flags.DF then s.getReg .DI - 2 else s.getReg .DI + 2))

/-- CMPSB and CMPSW set CF, OF, ZF and SF as SUB(source, destination) does, write no memory and move SI and DI (R203,
R292, R293; decisions D5, D7, D8, D24). -/
def Obligations.StringCompares : Prop :=
  ∀ (s : State) (a b : Word),
    ((s.getReg .SI).toNat ≤ 255 → (s.getReg .DI).toNat ≤ 255 →
      a = (s.readByte (s.getReg .SI).toNat).setWidth 16 → b = (s.readByte (s.getReg .DI).toNat).setWidth 16 →
      ∃ t, exec .cmpsb s = .next t ∧ t.status = s.status ∧
        t.flags = { s.flags with
          CF := decide (a.toNat < b.toNat), OF := false, ZF := decide (a = b), SF := decide (a.toNat < b.toNat) } ∧
        t.mem = s.mem ∧
        t.getReg .SI = (if s.flags.DF then s.getReg .SI - 1 else s.getReg .SI + 1) ∧
        t.getReg .DI = (if s.flags.DF then s.getReg .DI - 1 else s.getReg .DI + 1)) ∧
    (s.memRead2 (s.getReg .SI).toNat = .ok a → s.memRead2 (s.getReg .DI).toNat = .ok b →
      ∃ t, exec .cmpsw s = .next t ∧ t.status = s.status ∧
        t.flags = { s.flags with
          CF := decide (a.toNat < b.toNat)
          OF := decide (a.msb ≠ b.msb ∧ (a - b).msb ≠ a.msb)
          ZF := decide (a = b)
          SF := (a - b).msb } ∧
        t.mem = s.mem ∧
        t.getReg .SI = (if s.flags.DF then s.getReg .SI - 2 else s.getReg .SI + 2) ∧
        t.getReg .DI = (if s.flags.DF then s.getReg .DI - 2 else s.getReg .DI + 2))

/-- STC and CLC (R294, R295): CF set and cleared, nothing else; each takes no operand token. -/
def Obligations.CarrySetAndClear : Prop :=
  (∀ s : State, exec .stc s = .next { s with flags := { s.flags with CF := true } } ∧
    exec .clc s = .next { s with flags := { s.flags with CF := false } }) ∧
  (∀ (line : Line) (ops : List Token), tokenize line = ['S', 'T', 'C'] :: ops →
    decode line = if ops = [] then .ok .stc else .error (.tokenCount .stc)) ∧
  (∀ (line : Line) (ops : List Token), tokenize line = ['C', 'L', 'C'] :: ops →
    decode line = if ops = [] then .ok .clc else .error (.tokenCount .clc))

/-- Where the string instructions raise AddressingError, and that nothing else changes (R290 to R293, R402; decisions D11,
D17). -/
def Obligations.StringRangeErrors : Prop :=
  ∀ s : State,
    (∀ i ∈ [Instr.movsb, .cmpsb],
      (255 < (s.getReg .SI).toNat →
        exec i s = .next { s with status := .error (.addressing (.address (s.getReg .SI).toNat)) }) ∧
      ((s.getReg .SI).toNat ≤ 255 → 255 < (s.getReg .DI).toNat →
        exec i s = .next { s with status := .error (.addressing (.address (s.getReg .DI).toNat)) })) ∧
    (∀ i ∈ [Instr.movsw, .cmpsw],
      (254 < (s.getReg .SI).toNat →
        exec i s = .next { s with status := .error (.addressing (.address (s.getReg .SI).toNat)) }) ∧
      ((s.getReg .SI).toNat ≤ 254 → 254 < (s.getReg .DI).toNat →
        exec i s = .next { s with status := .error (.addressing (.address (s.getReg .DI).toNat)) }))

/-- The frame of the string instructions, STC and CLC (R289 to R295). -/
def Obligations.StringFrame : Prop :=
  ∀ (i : Instr) (s t : State), i ∈ [Instr.movsb, .movsw, .cmpsb, .cmpsw, .stc, .clc] → exec i s = .next t →
    SameRegsExcept (fun r => i ≠ .stc ∧ i ≠ .clc ∧ (r = .SI ∨ r = .DI)) s t ∧
    SameBytesExcept (fun a => (i = .movsb ∧ a = (s.getReg .DI).toNat) ∨
      (i = .movsw ∧ (a = (s.getReg .DI).toNat ∨ a = (s.getReg .DI).toNat + 1))) s t ∧
    ((i = .movsb ∨ i = .movsw) → t.flags = s.flags) ∧
    ((i = .stc ∨ i = .clc) → t.flags.ZF = s.flags.ZF ∧ t.flags.SF = s.flags.SF ∧ t.flags.OF = s.flags.OF) ∧
    (t.flags.PF = s.flags.PF ∧ t.flags.DF = s.flags.DF ∧ t.flags.IF = s.flags.IF) ∧
    t.dst = s.dst ∧ SameTargets s t ∧ SameUnits s t ∧ SameStatusOrError s t ∧
    t.devices = s.devices ∧ t.segment = s.segment ∧ t.cstack = s.cstack ∧ t.diags = s.diags ∧ t.program = s.program

/-! ## Pseudo-operations and labels -/

/-- The current-segment marker (R40): .CODE, .DATA and .STACK write it, nothing else does, and nothing reads it. -/
def Obligations.SegmentMarkerInformational : Prop :=
  (∀ s : State, exec .dotCode s = .next { s with segment := .code } ∧
    exec .dotData s = .next { s with segment := .data } ∧
    exec .dotStack s = .next { s with segment := .stack }) ∧
  (∀ (i : Instr) (s t : State) (x : Segment), i ≠ .dotCode → i ≠ .dotData → i ≠ .dotStack → exec i s = .next t →
    t.segment = s.segment ∧ exec i { s with segment := x } = .next { t with segment := x }) ∧
  (∀ (s t : State) (x : Segment), step s = .next t →
    ∃ y, step { s with segment := x } = .next { t with segment := y })

/-- DB, DW and DD insert or replace the entry of their label with the value modulo 65536 (R313 to R315; decision D13). -/
def Obligations.DataDefinition : Prop :=
  ∀ (l : Token) (v : Int) (s : State), ∀ i ∈ [Instr.db l v, .dw l v, .dd l v],
    ∃ t, exec i s = .next t ∧
      (∀ k, t.dst.find? k = if k = l then some (BitVec.ofInt 16 v) else s.dst.find? k) ∧
      t = { s with dst := t.dst }

/-- PROC records the index of its own line in the Procedure Table (R316), replacing an entry of the name; it takes one
operand token, the loop goes on to the next line, and a target of that name is the index unless the Label Table has the
name too. -/
def Obligations.ProcedureDefinition : Prop :=
  (∀ (n : Token) (s : State), ∃ t, exec (.proc n) s = .next t ∧
    (∀ k, t.procs.find? k = if k = n then some (s.getReg .IP) else s.procs.find? k) ∧
    t = { s with procs := t.procs } ∧
    ∀ o : Operand, o.tok = n → target o t = .ok ((s.labels.find? n).getD (s.getReg .IP))) ∧
  (∀ (n : Token) (s : State) (line : Line), s.status = .running → s.program[(s.getReg .IP).toNat]? = some line →
    decode line = .ok (.proc n) →
    ∃ t, exec (.proc n) s = .next t ∧ step s = .next (t.setReg .IP (s.getReg .IP + 1))) ∧
  (∀ (line : Line) (ops : List Token), tokenize line = ['P', 'R', 'O', 'C'] :: ops →
    (∀ n, ops = [n] → decode line = .ok (.proc n)) ∧
    (ops.length ≠ 1 → decode line = .error (.tokenCount .proc)))

/-- A label line records its own index in the Label Table; ENDP and an empty line change nothing (R317, R318, R320;
decisions D2, D18, D19). -/
def Obligations.LabelAndMarkerLines : Prop :=
  ∀ (s : State),
    (∀ n, ∃ t, exec (.label n) s = .next t ∧
      (∀ k, t.labels.find? k = if k = n then some (s.getReg .IP) else s.labels.find? k) ∧
      t = { s with labels := t.labels }) ∧
    exec .endp s = .next s ∧ exec .empty s = .next s

/-- No line traps as illegal (R142): a line whose first token is no mnemonic and no label runs as an unknown opcode, one
diagnostic and no other effect than IP moving on; lower-case spellings and the x86 mnemonics the map lacks are such. -/
def Obligations.UnknownOpcodeFallsThrough : Prop :=
  (∀ (s : State) (line : Line) (t : Token) (ops : List Token), s.status = .running →
    s.program[(s.getReg .IP).toNat]? = some line → tokenize line = t :: ops → t.getLast? ≠ some ':' →
    (∀ m : Mnemonic, m.text ≠ t) →
    exec (.unknown t) s = .next { s with diags := s.diags ++ [Diag.unknownOpcode t] } ∧
    step s = .next ({ s with diags := s.diags ++ [Diag.unknownOpcode t] }.setReg .IP (s.getReg .IP + 1))) ∧
  (∀ t ∈ [['m', 'o', 'v'], ['J', 'Z'], ['J', 'N', 'Z'], ['J', 'C'], ['L', 'O', 'O', 'P'], ['C', 'M', 'P'],
      ['I', 'N', 'C'], ['D', 'E', 'C'], ['N', 'E', 'G'], ['S', 'H', 'L'], ['S', 'H', 'R'], ['I', 'N'], ['O', 'U', 'T'],
      ['I', 'N', 'T'], ['I', 'R', 'E', 'T'], ['S', 'T', 'I'], ['C', 'L', 'I'], ['S', 'T', 'D'], ['C', 'L', 'D'],
      ['N', 'O', 'P'], ['A', 'D', 'C'], ['S', 'B', 'B']],
    decodeTokens [t] = .ok (.unknown t))

/-- The frame of the pseudo-operations, label lines, empty lines and unknown opcodes (R310 to R320). -/
def Obligations.DirectiveFrame : Prop :=
  ∀ (n : Token) (v : Int) (i : Instr) (s t : State),
    i ∈ [Instr.dotCode, .dotData, .dotStack, .db n v, .dw n v, .dd n v, .proc n, .endp, .label n, .empty, .unknown n] →
    exec i s = .next t →
    t.regs = s.regs ∧ t.flags = s.flags ∧ (∀ a, t.readByte a = s.readByte a) ∧ t.cstack = s.cstack ∧
    t.devices = s.devices ∧ SameUnits s t ∧ t.status = s.status ∧ t.program = s.program ∧
    (i ≠ .db n v → i ≠ .dw n v → i ≠ .dd n v → t.dst = s.dst) ∧
    (i ≠ .label n → t.labels = s.labels) ∧
    (i ≠ .proc n → t.procs = s.procs) ∧
    (i ≠ .dotCode → i ≠ .dotData → i ≠ .dotStack → t.segment = s.segment) ∧
    (i ≠ .unknown n → t.diags = s.diags)

/-! ## Peripheral-forwarding instructions -/

/-- VOICE switches the device its code selects and no other; STATUS reports a device and changes nothing (R330, R331;
decisions D28, D54). Whatever bijection `P_VOICE_MAP` is: one code and no other switches a given device on or off. -/
def Obligations.VoiceAndStatusResult : Prop :=
  (∀ (c : VoiceCode) (s : State), ∃ t, exec (.voice (.code c)) s = .next t ∧
    (∀ d, t.devices.get d = if d = (Config.voiceMap c).1 then (Config.voiceMap c).2 else s.devices.get d) ∧
    t = { s with devices := t.devices }) ∧
  (∀ (d : Device) (on : Bool), ∃ c, Config.voiceMap c = (d, on) ∧ ∀ c', Config.voiceMap c' = (d, on) → c' = c) ∧
  (∀ (d : Device) (s : State), exec (.status (.device d)) s =
    .next { s with diags := s.diags ++ [.statusReport d (s.devices.get d)] })

/-- CONFIG_TIMER, START_TIMER, STOP_TIMER and TICK_TIMER on channel 0, the tick with its coupling for whatever
`P_TICK_RULES` is (R332 to R336; decisions D30, D31): the other channels keep their fields. -/
def Obligations.TimerInstructionsResult : Prop :=
  ∀ (s : State) (ch : TimerChannel) (rest : List TimerChannel), s.timers = ch :: rest →
    (∀ mode n, exec (.configTimer mode n) s =
      .next { s with timers := { ch with counter := n, initial := n, mode := mode, running := false } :: rest }) ∧
    (ch.counter ≠ 0 → exec .startTimer s = .next { s with timers := { ch with running := true } :: rest }) ∧
    (ch.counter = 0 → exec .startTimer s = .next s) ∧
    exec .stopTimer s = .next { s with timers := { ch with running := false } :: rest } ∧
    (ch.running = true → exec .tickTimer s =
      .next { s with
        timers := { ch with counter := ch.counter - 1, running := decide (ch.counter - 1 ≠ 0) } :: rest
        devices := tickCoupling Config.tickRules ch.counter (ch.counter - 1) true s.devices }) ∧
    (ch.running = false → exec .tickTimer s =
      .next { s with devices := tickCoupling Config.tickRules ch.counter ch.counter false s.devices })

/-- The tick coupling for every setting of `P_TICK_RULES` (R336; decision D30): a stopped channel counts only with gate
ALWAYS, the rules apply in list order at the sampled value, only LED3 and Fan3 are driven, and only at 2, 3 and 5. In the setting
itself each of these values and devices appears. -/
def Obligations.TickCouplingRules : Prop :=
  (∀ v, ∃ r ∈ Config.tickRules.rules, r.value = v) ∧
  (∀ d, ∃ r ∈ Config.tickRules.rules, r.device = d) ∧
  ∀ (p : Config.TickRules) (before after : Word) (run : Bool) (ds : Devices),
    (p.gate = .runningOnly → run = false → tickCoupling p before after run ds = ds) ∧
    (∀ d, d ≠ .LED3 → d ≠ .Fan3 → (tickCoupling p before after run ds).get d = ds.get d) ∧
    (∀ c, c = (if p.sample = .before then before else after) →
      c ≠ 2 → c ≠ 3 → c ≠ 5 → tickCoupling p before after run ds = ds) ∧
    (p.rules = [] → tickCoupling p before after run ds = ds) ∧
    (∀ r rs c, p.rules = r :: rs → (p.gate = .always ∨ run = true) →
      c = (if p.sample = .before then before else after) →
      tickCoupling p before after run ds =
        tickCoupling { p with rules := rs } before after run
          (if c = tickValue r.value then
            ds.set (tickDevice r.device) (match r.action with
              | .on => true | .off => false | .invert => !ds.get (tickDevice r.device))
          else ds))

/-- WRITE_CTRL and WRITE_PORT (R337, R338, R340; decisions D33, D35, D37): the register takes the byte, the latch too, the
address and the lines stay as the instruction set them; the other registers keep theirs. -/
def Obligations.PortWriteResult : Prop :=
  ∀ (b : Byte) (s : State),
    exec (.writeCtrl b) s =
      .next { s with ppi := { s.ppi with ctrl := b, data := b, a1 := true, a0 := true, rd := true, wr := false, cs := false } } ∧
    exec (.writePort (.port .A) b) s =
      .next { s with ppi := { s.ppi with portA := b, data := b, a1 := false, a0 := false, rd := true, wr := false, cs := false } } ∧
    exec (.writePort (.port .B) b) s =
      .next { s with ppi := { s.ppi with portB := b, data := b, a1 := false, a0 := true, rd := true, wr := false, cs := false } } ∧
    exec (.writePort (.port .C) b) s =
      .next { s with ppi := { s.ppi with portC := b, data := b, a1 := true, a0 := false, rd := true, wr := false, cs := false } }

/-- READ_PORT copies the port's register to the latch and changes no register (R339; decision D33); after WRITE_PORT of the
same port the latch is the byte written. -/
def Obligations.PortReadResult : Prop :=
  (∀ s : State,
    exec (.readPort (.port .A)) s =
      .next { s with ppi := { s.ppi with data := s.ppi.portA, a1 := false, a0 := false, rd := false, wr := true, cs := false } } ∧
    exec (.readPort (.port .B)) s =
      .next { s with ppi := { s.ppi with data := s.ppi.portB, a1 := false, a0 := true, rd := false, wr := true, cs := false } } ∧
    exec (.readPort (.port .C)) s =
      .next { s with ppi := { s.ppi with data := s.ppi.portC, a1 := true, a0 := false, rd := false, wr := true, cs := false } }) ∧
  (∀ (p : Port) (b : Byte) (s t u : State), exec (.writePort (.port p) b) s = .next t →
    exec (.readPort (.port p)) t = .next u → u.ppi.data = b)

/-- The frame of the peripheral-forwarding instructions (R330 to R340): the CPU's own state is untouched. -/
def Obligations.PeripheralFrame : Prop :=
  ∀ (c : VoiceArg) (d : DeviceArg) (p : PortArg) (mode : Int) (n : Word) (b : Byte) (i : Instr) (s t : State),
    i ∈ [Instr.voice c, .status d, .configTimer mode n, .startTimer, .stopTimer, .tickTimer, .writeCtrl b,
      .writePort p b, .readPort p] →
    exec i s = .next t →
    t.regs = s.regs ∧ t.flags = s.flags ∧ (∀ a, t.readByte a = s.readByte a) ∧ t.dst = s.dst ∧ SameTargets s t ∧
    t.cstack = s.cstack ∧ t.segment = s.segment ∧ t.status = s.status ∧ t.pic = s.pic ∧ t.program = s.program ∧
    (i ≠ .voice c → i ≠ .tickTimer → t.devices = s.devices) ∧
    (i ≠ .configTimer mode n → i ≠ .startTimer → i ≠ .stopTimer → i ≠ .tickTimer → t.timers = s.timers) ∧
    (i ≠ .writeCtrl b → i ≠ .writePort p b → i ≠ .readPort p → t.ppi = s.ppi)

/-! ## The devices -/

/-- The timer's operations on every channel index (R421 to R425): a channel that exists is configured, started, stopped or
ticked and every other keeps its fields; any other index emits InvalidChannel and changes nothing. -/
def Obligations.TimerOperations : Prop :=
  ∀ (c mode : Int) (n : Word) (s : State),
    ((c < 0 ∨ (s.timers.length : Int) ≤ c) →
      ∀ t ∈ [timerConfigure c mode n s, timerStart c s, timerStop c s, timerTick c s],
        t = { s with diags := s.diags ++ [.invalidChannel c] }) ∧
    (∀ (k : Nat) (ch : TimerChannel), c = k → s.timers[k]? = some ch →
      (∀ j, (timerConfigure c mode n s).timers[j]? =
        if j = k then some { ch with counter := n, initial := n, mode := mode, running := false } else s.timers[j]?) ∧
      (∀ j, (timerStart c s).timers[j]? =
        if j = k then some (if ch.counter = 0 then ch else { ch with running := true }) else s.timers[j]?) ∧
      (∀ j, (timerStop c s).timers[j]? = if j = k then some { ch with running := false } else s.timers[j]?) ∧
      (∀ j, (timerTick c s).timers[j]? =
        if j = k then
          some (if ch.running then { ch with counter := ch.counter - 1, running := decide (ch.counter - 1 ≠ 0) } else ch)
        else s.timers[j]?) ∧
      (∀ t ∈ [timerConfigure c mode n s, timerStart c s, timerStop c s, timerTick c s], t = { s with timers := t.timers }))

/-- Configured with N above 0 and started, the timer still runs after fewer than N ticks, and after N it is stopped with
counter 0 (95_test_vectors.md E3; R421, R422, R424). -/
def Obligations.TimerCountsDown : Prop :=
  ∀ (mode : Int) (n : Word) (ch : TimerChannel) (k : Nat), n ≠ 0 →
    (k < n.toNat →
      (TimerChannel.tick^[k] (ch.configure mode n).start).running = true ∧
      (TimerChannel.tick^[k] (ch.configure mode n).start).counter.toNat = n.toNat - k) ∧
    (n.toNat ≤ k →
      (TimerChannel.tick^[k] (ch.configure mode n).start).running = false ∧
      (TimerChannel.tick^[k] (ch.configure mode n).start).counter = 0)

/-- The PPI's operations (R430 to R435; decisions D33, D34, D35): the address selects the register, an access whose gating
lines are not both asserted changes nothing, an address line other than 0 or 1 is refused. -/
def Obligations.PpiOperations : Prop :=
  ∀ (s : State) (b : Byte),
    (∀ a1 a0 : Int, ¬((a1 = 0 ∨ a1 = 1) ∧ (a0 = 0 ∨ a0 = 1)) →
      ppiSetAddress a1 a0 s = { s with diags := s.diags ++ [.invalidAddressLine a1 a0] }) ∧
    (∀ a1 a0 : Bool, ppiSetAddress (if a1 then 1 else 0) (if a0 then 1 else 0) s =
      { s with ppi := { s.ppi with a1 := a1, a0 := a0 } }) ∧
    (∀ rd wr cs, ppiSetLines rd wr cs s = { s with ppi := { s.ppi with rd := rd, wr := wr, cs := cs } }) ∧
    ((s.ppi.cs = true ∨ s.ppi.wr = true) → ppiWrite b s = { s with diags := s.diags ++ [.gatedOff .write] }) ∧
    ((s.ppi.cs = true ∨ s.ppi.rd = true) → ppiRead s = { s with diags := s.diags ++ [.gatedOff .read] }) ∧
    (s.ppi.cs = false → s.ppi.wr = false →
      (s.ppi.a1 = false → s.ppi.a0 = false → ppiWrite b s = { s with ppi := { s.ppi with data := b, portA := b } }) ∧
      (s.ppi.a1 = false → s.ppi.a0 = true → ppiWrite b s = { s with ppi := { s.ppi with data := b, portB := b } }) ∧
      (s.ppi.a1 = true → s.ppi.a0 = false → ppiWrite b s = { s with ppi := { s.ppi with data := b, portC := b } }) ∧
      (s.ppi.a1 = true → s.ppi.a0 = true → ppiWrite b s = { s with ppi := { s.ppi with data := b, ctrl := b } })) ∧
    (s.ppi.cs = false → s.ppi.rd = false →
      (s.ppi.a1 = false → s.ppi.a0 = false → ppiRead s = { s with ppi := { s.ppi with data := s.ppi.portA } }) ∧
      (s.ppi.a1 = false → s.ppi.a0 = true → ppiRead s = { s with ppi := { s.ppi with data := s.ppi.portB } }) ∧
      (s.ppi.a1 = true → s.ppi.a0 = false → ppiRead s = { s with ppi := { s.ppi with data := s.ppi.portC } }) ∧
      (s.ppi.a1 = true → s.ppi.a0 = true → ppiRead s = { s with ppi := { s.ppi with data := s.ppi.ctrl } })) ∧
    ppiGetData s = s.ppi.data

/-- `configure_ports` for every choice of the three positions (R436; decision D37): field 0 reports Input, 1 Output, 2 or 3
an invalid mode; for A, B and C in this order an invalid field appends one InvalidMode event with the field, and nothing
else changes. The fields of `P_PPI_MODE_FIELD` itself do not overlap. -/
def Obligations.PortModesReported : Prop :=
  (∀ p q, p ≠ q → (Config.ppiModeField p).val + 2 ≤ (Config.ppiModeField q).val ∨
    (Config.ppiModeField q).val + 2 ≤ (Config.ppiModeField p).val) ∧
  ∀ (field : Port → Fin 7) (s : State) (m : Port → Nat),
    (∀ p, m p = s.ppi.ctrl.toNat / 2 ^ (field p).val % 4) →
    ppiConfigurePorts field s =
      ({ s with diags := s.diags ++
          ((if 2 ≤ m .A then [.invalidMode .A (m .A)] else []) ++ (if 2 ≤ m .B then [.invalidMode .B (m .B)] else []) ++
            (if 2 ≤ m .C then [.invalidMode .C (m .C)] else [])) },
        (if m .A = 0 then .input else if m .A = 1 then .output else .invalid),
        (if m .B = 0 then .input else if m .B = 1 then .output else .invalid),
        (if m .C = 0 then .input else if m .C = 1 then .output else .invalid))

/-- The PIC's request, check and rotation (R441, R444, R447): `request` sets the IRQ's bit in IRR and no other, or fails
outside 0 to 7; `check` returns the first IRQ in priority order that is pending and unmasked; eight rotations of a full
order give it back. -/
def Obligations.PicRequestCheckRotate : Prop :=
  (∀ (p : Pic) (k : Fin 8), (p.request k.val).2 = [] ∧
    (∀ j, j < 8 → (p.request k.val).1.IRR.getLsbD j = (decide (j = k.val) || p.IRR.getLsbD j)) ∧
    (p.request k.val).1 = { p with IRR := (p.request k.val).1.IRR }) ∧
  (∀ (p : Pic) (k : Int), (k < 0 ∨ 7 < k) → p.request k = (p, [.invalidIRQ k])) ∧
  (∀ (p : Pic) (k : Fin 8), p.check = some k ↔
    ∃ before after, p.prio = before ++ k :: after ∧
      (p.IRR.getLsbD k.val = true ∧ p.IMR.getLsbD k.val = false) ∧
      ∀ j ∈ before, ¬(p.IRR.getLsbD j.val = true ∧ p.IMR.getLsbD j.val = false)) ∧
  (∀ p : Pic, p.apply .check = (p, [])) ∧
  (∀ q : PicPair, q.applyMaster .check = (q, [])) ∧
  (∀ p : Pic, p.check = none ↔ ∀ j ∈ p.prio, ¬(p.IRR.getLsbD j.val = true ∧ p.IMR.getLsbD j.val = false)) ∧
  (∀ (p : Pic) (k : Fin 8) (rest : List (Fin 8)), p.prio = k :: rest → p.rotate = { p with prio := rest ++ [k] }) ∧
  (∀ p : Pic, p.prio.length = 8 → (Pic.rotate^[8] p).prio = p.prio)

/-- The PIC's masks, acknowledge and end of interrupt (R442, R443, R445, R446, R448; decisions D38, D39): for 0 to 7 the
whole record after each, with no event; the nested counter back after a balanced pair; what `check` makes of a masked
request; no change and an InvalidIRQ event outside 0 to 7. -/
def Obligations.PicMaskAndService : Prop :=
  (∀ (p : Pic) (k : Fin 8),
    (∃ imr : Byte, p.mask k.val = ({ p with IMR := imr }, []) ∧
      ∀ j, j < 8 → imr.getLsbD j = (decide (j = k.val) || p.IMR.getLsbD j)) ∧
    (∃ imr : Byte, p.unmask k.val = ({ p with IMR := imr }, []) ∧
      ∀ j, j < 8 → imr.getLsbD j = (decide (j ≠ k.val) && p.IMR.getLsbD j)) ∧
    (∃ irr isr : Byte, p.acknowledge k.val = ({ p with IRR := irr, ISR := isr, nested := p.nested + 1 }, []) ∧
      (∀ j, j < 8 → irr.getLsbD j = (decide (j ≠ k.val) && p.IRR.getLsbD j)) ∧
      (∀ j, j < 8 → isr.getLsbD j = (decide (j = k.val) || p.ISR.getLsbD j))) ∧
    (∃ isr : Byte, p.endOfInterrupt k.val = ({ p with ISR := isr, nested := p.nested - 1 }, []) ∧
      ∀ j, j < 8 → isr.getLsbD j = (decide (j ≠ k.val) && p.ISR.getLsbD j)) ∧
    ((p.acknowledge k.val).1.endOfInterrupt k.val).1.nested = p.nested ∧
    (∀ j ∈ p.prio, p.IRR.getLsbD j.val = true → p.IMR.getLsbD j.val = false → j ≠ k →
      (((p.request k.val).1.mask k.val).1.check).isSome = true) ∧
    (((p.request k.val).1.mask k.val).1.check ≠ some k)) ∧
  (∀ (p : Pic) (k : Int), (k < 0 ∨ 7 < k) →
    ∀ r ∈ [p.mask k, p.unmask k, p.acknowledge k, p.endOfInterrupt k], r = (p, [.invalidIRQ k]))

/-- The routing of the PIC operations (R440, R449, R506; decisions D42, D43) and the host's answers. The master's
overrides: a request of line 2 only sets the pending-cascade flag, an acknowledge with the flag set clears it and goes to
the slave with the same IRQ. Every other operation on the master acts on the master alone, an operation on the slave or on
the one controller of a single configuration as on an ordinary instance. The host is answered `check`'s IRQ, the latch, the
port modes, or only that the operation is done; that an operation on a slave that does not exist has no result is the
model's choice (log 10). -/
def Obligations.CascadeDelegation : Prop :=
  (∀ (q : PicPair) (k : Fin 8),
    q.masterRequest 2 = ({ q with cascadePending := true }, []) ∧
    (k ≠ 2 → q.masterRequest k.val = ({ q with master := (q.master.request k.val).1 }, [])) ∧
    (q.cascadePending = true → q.masterAcknowledge k.val =
      ({ q with cascadePending := false, slave := (q.slave.acknowledge k.val).1 }, [])) ∧
    (q.cascadePending = false → q.masterAcknowledge k.val =
      ({ q with master := (q.master.acknowledge k.val).1 }, [])) ∧
    (∀ j : Int, (j < 0 ∨ 7 < j) → q.masterRequest j = (q, [.invalidIRQ j]) ∧ q.masterAcknowledge j = (q, [.invalidIRQ j]))) ∧
  (∀ (q : PicPair) (k : Int),
    (q.applyMaster (.request k) = q.masterRequest k ∧ q.applyMaster (.acknowledge k) = q.masterAcknowledge k) ∧
    ∀ op ∈ [PicOp.mask k, .unmask k, .check, .endOfInterrupt k, .rotatePriority],
      q.applyMaster op = ({ q with master := (q.master.apply op).1 }, (q.master.apply op).2)) ∧
  (∀ (p : Pic) (k : Int),
    p.apply (.request k) = p.request k ∧ p.apply (.mask k) = p.mask k ∧ p.apply (.unmask k) = p.unmask k ∧
    p.apply (.acknowledge k) = p.acknowledge k ∧ p.apply (.endOfInterrupt k) = p.endOfInterrupt k ∧
    p.apply .check = (p, []) ∧ p.apply .rotatePriority = (p.rotate, [])) ∧
  (∀ (s : State) (op : PicOp),
    (∀ q, s.pic = .masterSlave q →
      hostOp (.pic .master op) s = some ({ s with
        pic := .masterSlave (q.applyMaster op).1, diags := s.diags ++ (q.applyMaster op).2 },
        if op = .check then .irq q.master.check else .done) ∧
      hostOp (.pic .slave op) s = some ({ s with
        pic := .masterSlave { q with slave := (q.slave.apply op).1 }, diags := s.diags ++ (q.slave.apply op).2 },
        if op = .check then .irq q.slave.check else .done)) ∧
    (∀ c, s.pic = .single c →
      hostOp (.pic .master op) s = some ({ s with
        pic := .single (c.apply op).1, diags := s.diags ++ (c.apply op).2 },
        if op = .check then .irq c.check else .done) ∧
      hostOp (.pic .slave op) s = none)) ∧
  (∀ (s : State) (c mode a1 a0 : Int) (n : Word) (rd wr cs : Bool) (b : Byte),
    hostOp (.timerConfigure c mode n) s = some (timerConfigure c mode n s, .done) ∧
    hostOp (.timerStart c) s = some (timerStart c s, .done) ∧
    hostOp (.timerStop c) s = some (timerStop c s, .done) ∧
    hostOp (.timerTick c) s = some (timerTick c s, .done) ∧
    hostOp (.ppiSetAddress a1 a0) s = some (ppiSetAddress a1 a0 s, .done) ∧
    hostOp (.ppiSetLines rd wr cs) s = some (ppiSetLines rd wr cs s, .done) ∧
    hostOp (.ppiWrite b) s = some (ppiWrite b s, .done) ∧
    hostOp .ppiRead s = some (ppiRead s, .done) ∧
    hostOp .ppiGetData s = some (s, .data s.ppi.data) ∧
    ∃ t a b c, ppiConfigurePorts Config.ppiModeField s = (t, a, b, c) ∧
      hostOp .ppiConfigurePorts s = some (t, .ports a b c))
end

