-- ==== Sys2Proof/Laws/Sorted.lean ====
section
/-! SUPPORT. Sorted lists of key and value pairs, tables and data memory: reading after an update, and the canonical form
each update keeps. -/

namespace Sys2Proof.Machine

/-! ## Reading after an update: every list, sorted or not -/

section lookup
variable {κ ν : Type} [DecidableEq κ]

theorem findKey_insertKey (lt : κ → κ → Bool) (k q : κ) (v : ν) (l : List (κ × ν)) :
    findKey q (insertKey lt k v l) = if k = q then some v else findKey q l := by
  induction l with
  | nil => simp [insertKey, findKey]
  | cons p l ih =>
    obtain ⟨k', v'⟩ := p
    simp only [insertKey]
    split_ifs with h1 h2 h3 <;> simp_all [findKey]

theorem findKey_eraseKey (k q : κ) (l : List (κ × ν)) :
    findKey q (eraseKey k l) = if k = q then none else findKey q l := by
  induction l with
  | nil => simp [eraseKey, findKey]
  | cons p l ih =>
    obtain ⟨k', v'⟩ := p
    simp only [eraseKey]
    split_ifs with h1 h2 h3 <;> simp_all [findKey]

end lookup

theorem Table.find?_insert (t : Table) (k q : Token) (v : Word) :
    (t.insert k v).find? q = if k = q then some v else t.find? q := findKey_insertKey tokenLt k q v t

theorem Memory.read_write (m : Memory) (a x : Nat) (b : Byte) :
    (m.write a b).read x = if x = a then b else m.read x := by
  unfold Memory.write Memory.read
  split_ifs with h1 h2 h2
  · subst h1 h2; simp [findKey_eraseKey]
  · rw [findKey_eraseKey, if_neg (Ne.symm h2)]
  · subst h2; simp [findKey_insertKey]
  · rw [findKey_insertKey, if_neg (Ne.symm h2)]

@[simp] theorem State.writeByte_readByte (s : State) (a x : Nat) (b : Byte) :
    (s.writeByte a b).readByte x = if x = a then b else s.readByte x := Memory.read_write s.mem a x b

/-! ## The canonical form -/

section sorted
variable {κ ν : Type}

/-- What the order of a sorted list must satisfy. -/
structure StrictOrder (lt : κ → κ → Bool) : Prop where
  trans : ∀ a b c, lt a b = true → lt b c = true → lt a c = true
  total : ∀ a b, a ≠ b → lt a b = false → lt b a = true

/-- Every key of the list is above `k`. -/
def Above (lt : κ → κ → Bool) (k : κ) (l : List (κ × ν)) : Prop := ∀ p ∈ l, lt k p.1 = true

theorem sortedBy_cons {lt : κ → κ → Bool} (ho : StrictOrder lt) (p : κ × ν) (l : List (κ × ν)) :
    sortedBy lt (p :: l) = true ↔ Above lt p.1 l ∧ sortedBy lt l = true := by
  induction l generalizing p with
  | nil => simp [sortedBy, Above]
  | cons q l ih =>
    simp only [sortedBy, Bool.and_eq_true, Above, List.mem_cons, forall_eq_or_imp]
    constructor
    · rintro ⟨h1, h2⟩
      exact ⟨⟨h1, fun x hx => ho.trans _ _ _ h1 (((ih q).1 h2).1 x hx)⟩, h2⟩
    · rintro ⟨⟨h1, -⟩, h2⟩
      exact ⟨h1, h2⟩

variable [DecidableEq κ]

theorem above_insertKey {lt : κ → κ → Bool} {k q : κ} {v : ν} {l : List (κ × ν)}
    (hq : lt q k = true) (h : Above lt q l) : Above lt q (insertKey lt k v l) := by
  induction l with
  | nil => simpa [insertKey, Above] using hq
  | cons p l ih =>
    obtain ⟨k', v'⟩ := p
    have h1 : lt q k' = true := h (k', v') (by simp)
    have h2 : Above lt q l := fun x hx => h x (by simp [hx])
    simp only [insertKey]
    split_ifs <;> intro x hx <;> simp only [List.mem_cons] at hx
    · rcases hx with rfl | hx
      exacts [hq, h2 x hx]
    · rcases hx with rfl | rfl | hx
      exacts [hq, h1, h2 x hx]
    · rcases hx with rfl | hx
      exacts [h1, ih h2 x hx]

theorem above_eraseKey {lt : κ → κ → Bool} {k q : κ} {l : List (κ × ν)}
    (h : Above lt q l) : Above lt q (eraseKey k l) := by
  induction l with
  | nil => exact h
  | cons p l ih =>
    obtain ⟨k', v'⟩ := p
    have h2 : Above lt q l := fun x hx => h x (by simp [hx])
    simp only [eraseKey]
    split_ifs
    · exact ih h2
    · intro x hx
      rcases List.mem_cons.1 hx with rfl | hx
      exacts [h _ (by simp), ih h2 x hx]

theorem sortedBy_insertKey {lt : κ → κ → Bool} (ho : StrictOrder lt) (k : κ) (v : ν) (l : List (κ × ν))
    (h : sortedBy lt l = true) : sortedBy lt (insertKey lt k v l) = true := by
  induction l with
  | nil => rfl
  | cons p l ih =>
    obtain ⟨k', v'⟩ := p
    obtain ⟨ha, hs⟩ := (sortedBy_cons ho _ _).1 h
    simp only [insertKey]
    split_ifs with h1 h2
    · subst h1
      exact (sortedBy_cons ho _ _).2 ⟨ha, hs⟩
    · refine (sortedBy_cons ho _ _).2 ⟨fun x hx => ?_, h⟩
      rcases List.mem_cons.1 hx with rfl | hx
      exacts [h2, ho.trans _ _ _ h2 (ha x hx)]
    · have h3 : lt k' k = true := ho.total k k' (Ne.symm h1) (by simpa using h2)
      exact (sortedBy_cons ho _ _).2 ⟨above_insertKey h3 ha, ih hs⟩

theorem sortedBy_eraseKey {lt : κ → κ → Bool} (ho : StrictOrder lt) (k : κ) (l : List (κ × ν))
    (h : sortedBy lt l = true) : sortedBy lt (eraseKey k l) = true := by
  induction l with
  | nil => rfl
  | cons p l ih =>
    obtain ⟨k', v'⟩ := p
    obtain ⟨ha, hs⟩ := (sortedBy_cons ho _ _).1 h
    simp only [eraseKey]
    split_ifs
    · exact ih hs
    · exact (sortedBy_cons ho _ _).2 ⟨above_eraseKey ha, ih hs⟩

theorem all_insertKey {p : κ × ν → Bool} (lt : κ → κ → Bool) (k : κ) (v : ν) (l : List (κ × ν))
    (hk : p (k, v) = true) (h : l.all p = true) : (insertKey lt k v l).all p = true := by
  induction l with
  | nil => simpa [insertKey] using hk
  | cons q l ih =>
    simp only [List.all_cons, Bool.and_eq_true] at h
    simp only [insertKey]
    split_ifs <;> simp_all

theorem all_eraseKey {p : κ × ν → Bool} (k : κ) (l : List (κ × ν)) (h : l.all p = true) :
    (eraseKey k l).all p = true := by
  induction l with
  | nil => rfl
  | cons q l ih =>
    simp only [List.all_cons, Bool.and_eq_true] at h
    simp only [eraseKey]
    split_ifs <;> simp_all

end sorted

theorem natLt_strictOrder : StrictOrder (fun a b : Nat => decide (a < b)) where
  trans a b c := by simp only [decide_eq_true_eq]; omega
  total a b := by simp only [decide_eq_true_eq, decide_eq_false_iff_not]; omega

theorem tokenLt_trans : ∀ a b c : Token, tokenLt a b = true → tokenLt b c = true → tokenLt a c = true
  | _, _, [], _, h => by simp [tokenLt] at h
  | _, [], _ :: _, h, _ => by simp [tokenLt] at h
  | [], _ :: _, _ :: _, _, _ => rfl
  | a :: as, b :: bs, c :: cs, h1, h2 => by
    simp only [tokenLt, Bool.or_eq_true, Bool.and_eq_true, decide_eq_true_eq] at *
    rcases h1 with h1 | ⟨h1, h1'⟩ <;> rcases h2 with h2 | ⟨h2, h2'⟩
    · exact .inl (by omega)
    · exact .inl (by omega)
    · exact .inl (by omega)
    · exact .inr ⟨by omega, tokenLt_trans as bs cs h1' h2'⟩

theorem tokenLt_total : ∀ a b : Token, a ≠ b → tokenLt a b = false → tokenLt b a = true
  | [], [], h, _ => absurd rfl h
  | [], _ :: _, _, h => by simp [tokenLt] at h
  | _ :: _, [], _, _ => rfl
  | a :: as, b :: bs, h, h2 => by
    simp only [tokenLt, Bool.or_eq_false_iff, Bool.and_eq_false_iff, decide_eq_false_iff_not, Bool.or_eq_true,
      Bool.and_eq_true, decide_eq_true_eq] at *
    obtain ⟨h3, h4⟩ := h2
    by_cases hab : a.toNat = b.toNat
    · have hc : a = b := Char.ext (UInt32.toNat_inj.1 hab)
      subst hc
      exact .inr ⟨rfl, tokenLt_total as bs (fun e => h (by rw [e])) (h4.resolve_left (fun e => e rfl))⟩
    · exact .inl (by omega)

theorem tokenLt_strictOrder : StrictOrder tokenLt := ⟨tokenLt_trans, tokenLt_total⟩

theorem Table.insert_wf (t : Table) (k : Token) (v : Word) (h : Table.wf t = true) : Table.wf (t.insert k v) = true :=
  sortedBy_insertKey tokenLt_strictOrder k v t h

theorem Memory.write_wf (m : Memory) (a : Nat) (b : Byte) (ha : a < Config.memSize) (h : Memory.wf m = true) :
    Memory.wf (m.write a b) = true := by
  simp only [Memory.wf, Bool.and_eq_true] at h ⊢
  unfold Memory.write
  split_ifs with hb
  · exact ⟨sortedBy_eraseKey natLt_strictOrder a m h.1, all_eraseKey a m h.2⟩
  · exact ⟨sortedBy_insertKey natLt_strictOrder a b m h.1, all_insertKey _ a b m (by simpa [ha] using hb) h.2⟩

/-! ## The memory primitives (R82 to R85) -/

theorem inRange_iff (a n : Int) : inRange a n = true ↔ 0 ≤ a ∧ a + n ≤ 256 := by
  simp [inRange]

theorem State.memWrite1_ok {s t : State} {a : Int} {b : Byte} (h : s.memWrite1 a b = .ok t) :
    (0 ≤ a ∧ a + 1 ≤ 256) ∧ t = s.writeByte a.toNat b := by
  unfold State.memWrite1 at h
  split_ifs at h with hr
  exact ⟨(inRange_iff a 1).1 hr, (Except.ok.inj h).symm⟩

theorem State.memWrite2_ok {s t : State} {a : Int} {v : Word} (h : s.memWrite2 a v = .ok t) :
    (0 ≤ a ∧ a + 2 ≤ 256) ∧ t = (s.writeByte a.toNat (hiByte v)).writeByte (a.toNat + 1) (loByte v) := by
  unfold State.memWrite2 at h
  split_ifs at h with hr
  exact ⟨(inRange_iff a 2).1 hr, (Except.ok.inj h).symm⟩

theorem State.memWrite1_wf {s t : State} {a : Int} {b : Byte} (h : s.memWrite1 a b = .ok t)
    (hm : Memory.wf s.mem = true) : Memory.wf t.mem = true := by
  obtain ⟨hr, rfl⟩ := State.memWrite1_ok h
  exact Memory.write_wf _ _ _ (by simp only [Config.memSize]; omega) hm

theorem State.memWrite2_wf {s t : State} {a : Int} {v : Word} (h : s.memWrite2 a v = .ok t)
    (hm : Memory.wf s.mem = true) : Memory.wf t.mem = true := by
  obtain ⟨hr, rfl⟩ := State.memWrite2_ok h
  exact Memory.write_wf _ _ _ (by simp only [Config.memSize]; omega)
    (Memory.write_wf _ _ _ (by simp only [Config.memSize]; omega) hm)

theorem Memory.reset_wf : Memory.wf State.reset.mem = true := rfl

end Sys2Proof.Machine
end

