-- ==== Sys2Proof/Laws/State.lean ====
section
/-! SUPPORT. What each named update of the state does to each field, so that no proof unfolds a record update. -/

namespace Sys2Proof.Machine

/-! ### setReg -/

@[simp] theorem State.setReg_regs (s : State) (r : Reg) (v : Word) : (s.setReg r v).regs = s.regs.set r v := rfl
@[simp] theorem State.setReg_flags (s : State) (r : Reg) (v : Word) : (s.setReg r v).flags = s.flags := rfl
@[simp] theorem State.setReg_status (s : State) (r : Reg) (v : Word) : (s.setReg r v).status = s.status := rfl
@[simp] theorem State.setReg_segment (s : State) (r : Reg) (v : Word) : (s.setReg r v).segment = s.segment := rfl
@[simp] theorem State.setReg_dst (s : State) (r : Reg) (v : Word) : (s.setReg r v).dst = s.dst := rfl
@[simp] theorem State.setReg_labels (s : State) (r : Reg) (v : Word) : (s.setReg r v).labels = s.labels := rfl
@[simp] theorem State.setReg_procs (s : State) (r : Reg) (v : Word) : (s.setReg r v).procs = s.procs := rfl
@[simp] theorem State.setReg_cstack (s : State) (r : Reg) (v : Word) : (s.setReg r v).cstack = s.cstack := rfl
@[simp] theorem State.setReg_mem (s : State) (r : Reg) (v : Word) : (s.setReg r v).mem = s.mem := rfl
@[simp] theorem State.setReg_devices (s : State) (r : Reg) (v : Word) : (s.setReg r v).devices = s.devices := rfl
@[simp] theorem State.setReg_timers (s : State) (r : Reg) (v : Word) : (s.setReg r v).timers = s.timers := rfl
@[simp] theorem State.setReg_ppi (s : State) (r : Reg) (v : Word) : (s.setReg r v).ppi = s.ppi := rfl
@[simp] theorem State.setReg_pic (s : State) (r : Reg) (v : Word) : (s.setReg r v).pic = s.pic := rfl
@[simp] theorem State.setReg_diags (s : State) (r : Reg) (v : Word) : (s.setReg r v).diags = s.diags := rfl
@[simp] theorem State.setReg_program (s : State) (r : Reg) (v : Word) : (s.setReg r v).program = s.program := rfl
@[simp] theorem State.setReg_readByte (s : State) (r : Reg) (v : Word) (x : Nat) : (s.setReg r v).readByte x = s.readByte x := rfl

/-! ### setFlags -/

@[simp] theorem State.setFlags_regs (s : State) (f : Flags) : (s.setFlags f).regs = s.regs := rfl
@[simp] theorem State.setFlags_flags (s : State) (f : Flags) : (s.setFlags f).flags = f := rfl
@[simp] theorem State.setFlags_status (s : State) (f : Flags) : (s.setFlags f).status = s.status := rfl
@[simp] theorem State.setFlags_segment (s : State) (f : Flags) : (s.setFlags f).segment = s.segment := rfl
@[simp] theorem State.setFlags_dst (s : State) (f : Flags) : (s.setFlags f).dst = s.dst := rfl
@[simp] theorem State.setFlags_labels (s : State) (f : Flags) : (s.setFlags f).labels = s.labels := rfl
@[simp] theorem State.setFlags_procs (s : State) (f : Flags) : (s.setFlags f).procs = s.procs := rfl
@[simp] theorem State.setFlags_cstack (s : State) (f : Flags) : (s.setFlags f).cstack = s.cstack := rfl
@[simp] theorem State.setFlags_mem (s : State) (f : Flags) : (s.setFlags f).mem = s.mem := rfl
@[simp] theorem State.setFlags_devices (s : State) (f : Flags) : (s.setFlags f).devices = s.devices := rfl
@[simp] theorem State.setFlags_timers (s : State) (f : Flags) : (s.setFlags f).timers = s.timers := rfl
@[simp] theorem State.setFlags_ppi (s : State) (f : Flags) : (s.setFlags f).ppi = s.ppi := rfl
@[simp] theorem State.setFlags_pic (s : State) (f : Flags) : (s.setFlags f).pic = s.pic := rfl
@[simp] theorem State.setFlags_diags (s : State) (f : Flags) : (s.setFlags f).diags = s.diags := rfl
@[simp] theorem State.setFlags_program (s : State) (f : Flags) : (s.setFlags f).program = s.program := rfl
@[simp] theorem State.setFlags_getReg (s : State) (f : Flags) (q : Reg) : (s.setFlags f).getReg q = s.getReg q := rfl
@[simp] theorem State.setFlags_readByte (s : State) (f : Flags) (x : Nat) : (s.setFlags f).readByte x = s.readByte x := rfl

/-! ### writeByte -/

@[simp] theorem State.writeByte_regs (s : State) (a : Nat) (b : Byte) : (s.writeByte a b).regs = s.regs := rfl
@[simp] theorem State.writeByte_flags (s : State) (a : Nat) (b : Byte) : (s.writeByte a b).flags = s.flags := rfl
@[simp] theorem State.writeByte_status (s : State) (a : Nat) (b : Byte) : (s.writeByte a b).status = s.status := rfl
@[simp] theorem State.writeByte_segment (s : State) (a : Nat) (b : Byte) : (s.writeByte a b).segment = s.segment := rfl
@[simp] theorem State.writeByte_dst (s : State) (a : Nat) (b : Byte) : (s.writeByte a b).dst = s.dst := rfl
@[simp] theorem State.writeByte_labels (s : State) (a : Nat) (b : Byte) : (s.writeByte a b).labels = s.labels := rfl
@[simp] theorem State.writeByte_procs (s : State) (a : Nat) (b : Byte) : (s.writeByte a b).procs = s.procs := rfl
@[simp] theorem State.writeByte_cstack (s : State) (a : Nat) (b : Byte) : (s.writeByte a b).cstack = s.cstack := rfl
@[simp] theorem State.writeByte_mem (s : State) (a : Nat) (b : Byte) : (s.writeByte a b).mem = s.mem.write a b := rfl
@[simp] theorem State.writeByte_devices (s : State) (a : Nat) (b : Byte) : (s.writeByte a b).devices = s.devices := rfl
@[simp] theorem State.writeByte_timers (s : State) (a : Nat) (b : Byte) : (s.writeByte a b).timers = s.timers := rfl
@[simp] theorem State.writeByte_ppi (s : State) (a : Nat) (b : Byte) : (s.writeByte a b).ppi = s.ppi := rfl
@[simp] theorem State.writeByte_pic (s : State) (a : Nat) (b : Byte) : (s.writeByte a b).pic = s.pic := rfl
@[simp] theorem State.writeByte_diags (s : State) (a : Nat) (b : Byte) : (s.writeByte a b).diags = s.diags := rfl
@[simp] theorem State.writeByte_program (s : State) (a : Nat) (b : Byte) : (s.writeByte a b).program = s.program := rfl
@[simp] theorem State.writeByte_getReg (s : State) (a : Nat) (b : Byte) (q : Reg) : (s.writeByte a b).getReg q = s.getReg q := rfl

/-! ### launch -/

@[simp] theorem State.launch_program (p : List Line) : (State.launch p).program = p := rfl
@[simp] theorem State.launch_regs (p : List Line) : (State.launch p).regs = State.reset.regs := rfl
@[simp] theorem State.launch_flags (p : List Line) : (State.launch p).flags = State.reset.flags := rfl
@[simp] theorem State.launch_status (p : List Line) : (State.launch p).status = State.reset.status := rfl
@[simp] theorem State.launch_segment (p : List Line) : (State.launch p).segment = State.reset.segment := rfl
@[simp] theorem State.launch_dst (p : List Line) : (State.launch p).dst = State.reset.dst := rfl
@[simp] theorem State.launch_labels (p : List Line) : (State.launch p).labels = State.reset.labels := rfl
@[simp] theorem State.launch_procs (p : List Line) : (State.launch p).procs = State.reset.procs := rfl
@[simp] theorem State.launch_cstack (p : List Line) : (State.launch p).cstack = State.reset.cstack := rfl
@[simp] theorem State.launch_mem (p : List Line) : (State.launch p).mem = State.reset.mem := rfl
@[simp] theorem State.launch_devices (p : List Line) : (State.launch p).devices = State.reset.devices := rfl
@[simp] theorem State.launch_timers (p : List Line) : (State.launch p).timers = State.reset.timers := rfl
@[simp] theorem State.launch_ppi (p : List Line) : (State.launch p).ppi = State.reset.ppi := rfl
@[simp] theorem State.launch_pic (p : List Line) : (State.launch p).pic = State.reset.pic := rfl
@[simp] theorem State.launch_diags (p : List Line) : (State.launch p).diags = State.reset.diags := rfl

/-! ### push -/

@[simp] theorem State.push_regs (s : State) (v : Word) : (s.push v).regs = s.regs := rfl
@[simp] theorem State.push_flags (s : State) (v : Word) : (s.push v).flags = s.flags := rfl
@[simp] theorem State.push_status (s : State) (v : Word) : (s.push v).status = s.status := rfl
@[simp] theorem State.push_segment (s : State) (v : Word) : (s.push v).segment = s.segment := rfl
@[simp] theorem State.push_dst (s : State) (v : Word) : (s.push v).dst = s.dst := rfl
@[simp] theorem State.push_labels (s : State) (v : Word) : (s.push v).labels = s.labels := rfl
@[simp] theorem State.push_procs (s : State) (v : Word) : (s.push v).procs = s.procs := rfl
@[simp] theorem State.push_cstack (s : State) (v : Word) : (s.push v).cstack = s.cstack ++ [v] := rfl
@[simp] theorem State.push_mem (s : State) (v : Word) : (s.push v).mem = s.mem := rfl
@[simp] theorem State.push_devices (s : State) (v : Word) : (s.push v).devices = s.devices := rfl
@[simp] theorem State.push_timers (s : State) (v : Word) : (s.push v).timers = s.timers := rfl
@[simp] theorem State.push_ppi (s : State) (v : Word) : (s.push v).ppi = s.ppi := rfl
@[simp] theorem State.push_pic (s : State) (v : Word) : (s.push v).pic = s.pic := rfl
@[simp] theorem State.push_diags (s : State) (v : Word) : (s.push v).diags = s.diags := rfl
@[simp] theorem State.push_program (s : State) (v : Word) : (s.push v).program = s.program := rfl
@[simp] theorem State.push_getReg (s : State) (v : Word) (q : Reg) : (s.push v).getReg q = s.getReg q := rfl
@[simp] theorem State.push_readByte (s : State) (v : Word) (x : Nat) : (s.push v).readByte x = s.readByte x := rfl

/-! ### dropTop -/

@[simp] theorem State.dropTop_regs (s : State) : (s.dropTop).regs = s.regs := rfl
@[simp] theorem State.dropTop_flags (s : State) : (s.dropTop).flags = s.flags := rfl
@[simp] theorem State.dropTop_status (s : State) : (s.dropTop).status = s.status := rfl
@[simp] theorem State.dropTop_segment (s : State) : (s.dropTop).segment = s.segment := rfl
@[simp] theorem State.dropTop_dst (s : State) : (s.dropTop).dst = s.dst := rfl
@[simp] theorem State.dropTop_labels (s : State) : (s.dropTop).labels = s.labels := rfl
@[simp] theorem State.dropTop_procs (s : State) : (s.dropTop).procs = s.procs := rfl
@[simp] theorem State.dropTop_cstack (s : State) : (s.dropTop).cstack = s.cstack.dropLast := rfl
@[simp] theorem State.dropTop_mem (s : State) : (s.dropTop).mem = s.mem := rfl
@[simp] theorem State.dropTop_devices (s : State) : (s.dropTop).devices = s.devices := rfl
@[simp] theorem State.dropTop_timers (s : State) : (s.dropTop).timers = s.timers := rfl
@[simp] theorem State.dropTop_ppi (s : State) : (s.dropTop).ppi = s.ppi := rfl
@[simp] theorem State.dropTop_pic (s : State) : (s.dropTop).pic = s.pic := rfl
@[simp] theorem State.dropTop_diags (s : State) : (s.dropTop).diags = s.diags := rfl
@[simp] theorem State.dropTop_program (s : State) : (s.dropTop).program = s.program := rfl
@[simp] theorem State.dropTop_getReg (s : State) (q : Reg) : (s.dropTop).getReg q = s.getReg q := rfl
@[simp] theorem State.dropTop_readByte (s : State) (x : Nat) : (s.dropTop).readByte x = s.readByte x := rfl

/-! ### emitAll -/

@[simp] theorem State.emitAll_regs (s : State) (ds : List Diag) : (s.emitAll ds).regs = s.regs := rfl
@[simp] theorem State.emitAll_flags (s : State) (ds : List Diag) : (s.emitAll ds).flags = s.flags := rfl
@[simp] theorem State.emitAll_status (s : State) (ds : List Diag) : (s.emitAll ds).status = s.status := rfl
@[simp] theorem State.emitAll_segment (s : State) (ds : List Diag) : (s.emitAll ds).segment = s.segment := rfl
@[simp] theorem State.emitAll_dst (s : State) (ds : List Diag) : (s.emitAll ds).dst = s.dst := rfl
@[simp] theorem State.emitAll_labels (s : State) (ds : List Diag) : (s.emitAll ds).labels = s.labels := rfl
@[simp] theorem State.emitAll_procs (s : State) (ds : List Diag) : (s.emitAll ds).procs = s.procs := rfl
@[simp] theorem State.emitAll_cstack (s : State) (ds : List Diag) : (s.emitAll ds).cstack = s.cstack := rfl
@[simp] theorem State.emitAll_mem (s : State) (ds : List Diag) : (s.emitAll ds).mem = s.mem := rfl
@[simp] theorem State.emitAll_devices (s : State) (ds : List Diag) : (s.emitAll ds).devices = s.devices := rfl
@[simp] theorem State.emitAll_timers (s : State) (ds : List Diag) : (s.emitAll ds).timers = s.timers := rfl
@[simp] theorem State.emitAll_ppi (s : State) (ds : List Diag) : (s.emitAll ds).ppi = s.ppi := rfl
@[simp] theorem State.emitAll_pic (s : State) (ds : List Diag) : (s.emitAll ds).pic = s.pic := rfl
@[simp] theorem State.emitAll_diags (s : State) (ds : List Diag) : (s.emitAll ds).diags = s.diags ++ ds := rfl
@[simp] theorem State.emitAll_program (s : State) (ds : List Diag) : (s.emitAll ds).program = s.program := rfl
@[simp] theorem State.emitAll_getReg (s : State) (ds : List Diag) (q : Reg) : (s.emitAll ds).getReg q = s.getReg q := rfl
@[simp] theorem State.emitAll_readByte (s : State) (ds : List Diag) (x : Nat) : (s.emitAll ds).readByte x = s.readByte x := rfl

/-! ### emit -/

@[simp] theorem State.emit_regs (s : State) (d : Diag) : (s.emit d).regs = s.regs := rfl
@[simp] theorem State.emit_flags (s : State) (d : Diag) : (s.emit d).flags = s.flags := rfl
@[simp] theorem State.emit_status (s : State) (d : Diag) : (s.emit d).status = s.status := rfl
@[simp] theorem State.emit_segment (s : State) (d : Diag) : (s.emit d).segment = s.segment := rfl
@[simp] theorem State.emit_dst (s : State) (d : Diag) : (s.emit d).dst = s.dst := rfl
@[simp] theorem State.emit_labels (s : State) (d : Diag) : (s.emit d).labels = s.labels := rfl
@[simp] theorem State.emit_procs (s : State) (d : Diag) : (s.emit d).procs = s.procs := rfl
@[simp] theorem State.emit_cstack (s : State) (d : Diag) : (s.emit d).cstack = s.cstack := rfl
@[simp] theorem State.emit_mem (s : State) (d : Diag) : (s.emit d).mem = s.mem := rfl
@[simp] theorem State.emit_devices (s : State) (d : Diag) : (s.emit d).devices = s.devices := rfl
@[simp] theorem State.emit_timers (s : State) (d : Diag) : (s.emit d).timers = s.timers := rfl
@[simp] theorem State.emit_ppi (s : State) (d : Diag) : (s.emit d).ppi = s.ppi := rfl
@[simp] theorem State.emit_pic (s : State) (d : Diag) : (s.emit d).pic = s.pic := rfl
@[simp] theorem State.emit_diags (s : State) (d : Diag) : (s.emit d).diags = s.diags ++ [d] := rfl
@[simp] theorem State.emit_program (s : State) (d : Diag) : (s.emit d).program = s.program := rfl
@[simp] theorem State.emit_getReg (s : State) (d : Diag) (q : Reg) : (s.emit d).getReg q = s.getReg q := rfl
@[simp] theorem State.emit_readByte (s : State) (d : Diag) (x : Nat) : (s.emit d).readByte x = s.readByte x := rfl

/-! ### raise -/

@[simp] theorem State.raise_regs (s : State) (e : FatalError) : (s.raise e).regs = s.regs := rfl
@[simp] theorem State.raise_flags (s : State) (e : FatalError) : (s.raise e).flags = s.flags := rfl
@[simp] theorem State.raise_status (s : State) (e : FatalError) : (s.raise e).status = .error e := rfl
@[simp] theorem State.raise_segment (s : State) (e : FatalError) : (s.raise e).segment = s.segment := rfl
@[simp] theorem State.raise_dst (s : State) (e : FatalError) : (s.raise e).dst = s.dst := rfl
@[simp] theorem State.raise_labels (s : State) (e : FatalError) : (s.raise e).labels = s.labels := rfl
@[simp] theorem State.raise_procs (s : State) (e : FatalError) : (s.raise e).procs = s.procs := rfl
@[simp] theorem State.raise_cstack (s : State) (e : FatalError) : (s.raise e).cstack = s.cstack := rfl
@[simp] theorem State.raise_mem (s : State) (e : FatalError) : (s.raise e).mem = s.mem := rfl
@[simp] theorem State.raise_devices (s : State) (e : FatalError) : (s.raise e).devices = s.devices := rfl
@[simp] theorem State.raise_timers (s : State) (e : FatalError) : (s.raise e).timers = s.timers := rfl
@[simp] theorem State.raise_ppi (s : State) (e : FatalError) : (s.raise e).ppi = s.ppi := rfl
@[simp] theorem State.raise_pic (s : State) (e : FatalError) : (s.raise e).pic = s.pic := rfl
@[simp] theorem State.raise_diags (s : State) (e : FatalError) : (s.raise e).diags = s.diags := rfl
@[simp] theorem State.raise_program (s : State) (e : FatalError) : (s.raise e).program = s.program := rfl
@[simp] theorem State.raise_getReg (s : State) (e : FatalError) (q : Reg) : (s.raise e).getReg q = s.getReg q := rfl
@[simp] theorem State.raise_readByte (s : State) (e : FatalError) (x : Nat) : (s.raise e).readByte x = s.readByte x := rfl

/-! ### overrun -/

@[simp] theorem State.overrun_regs (s : State) : (s.overrun).regs = s.regs := rfl
@[simp] theorem State.overrun_flags (s : State) : (s.overrun).flags = s.flags := rfl
@[simp] theorem State.overrun_status (s : State) : (s.overrun).status = .overrun := rfl
@[simp] theorem State.overrun_segment (s : State) : (s.overrun).segment = s.segment := rfl
@[simp] theorem State.overrun_dst (s : State) : (s.overrun).dst = s.dst := rfl
@[simp] theorem State.overrun_labels (s : State) : (s.overrun).labels = s.labels := rfl
@[simp] theorem State.overrun_procs (s : State) : (s.overrun).procs = s.procs := rfl
@[simp] theorem State.overrun_cstack (s : State) : (s.overrun).cstack = s.cstack := rfl
@[simp] theorem State.overrun_mem (s : State) : (s.overrun).mem = s.mem := rfl
@[simp] theorem State.overrun_devices (s : State) : (s.overrun).devices = s.devices := rfl
@[simp] theorem State.overrun_timers (s : State) : (s.overrun).timers = s.timers := rfl
@[simp] theorem State.overrun_ppi (s : State) : (s.overrun).ppi = s.ppi := rfl
@[simp] theorem State.overrun_pic (s : State) : (s.overrun).pic = s.pic := rfl
@[simp] theorem State.overrun_diags (s : State) : (s.overrun).diags = s.diags := rfl
@[simp] theorem State.overrun_program (s : State) : (s.overrun).program = s.program := rfl
@[simp] theorem State.overrun_getReg (s : State) (q : Reg) : (s.overrun).getReg q = s.getReg q := rfl
@[simp] theorem State.overrun_readByte (s : State) (x : Nat) : (s.overrun).readByte x = s.readByte x := rfl

/-! ### advance -/

@[simp] theorem State.advance_regs (s : State) : (s.advance).regs = s.regs.set .IP (s.getReg .IP + 1) := rfl
@[simp] theorem State.advance_flags (s : State) : (s.advance).flags = s.flags := rfl
@[simp] theorem State.advance_status (s : State) : (s.advance).status = s.status := rfl
@[simp] theorem State.advance_segment (s : State) : (s.advance).segment = s.segment := rfl
@[simp] theorem State.advance_dst (s : State) : (s.advance).dst = s.dst := rfl
@[simp] theorem State.advance_labels (s : State) : (s.advance).labels = s.labels := rfl
@[simp] theorem State.advance_procs (s : State) : (s.advance).procs = s.procs := rfl
@[simp] theorem State.advance_cstack (s : State) : (s.advance).cstack = s.cstack := rfl
@[simp] theorem State.advance_mem (s : State) : (s.advance).mem = s.mem := rfl
@[simp] theorem State.advance_devices (s : State) : (s.advance).devices = s.devices := rfl
@[simp] theorem State.advance_timers (s : State) : (s.advance).timers = s.timers := rfl
@[simp] theorem State.advance_ppi (s : State) : (s.advance).ppi = s.ppi := rfl
@[simp] theorem State.advance_pic (s : State) : (s.advance).pic = s.pic := rfl
@[simp] theorem State.advance_diags (s : State) : (s.advance).diags = s.diags := rfl
@[simp] theorem State.advance_program (s : State) : (s.advance).program = s.program := rfl
@[simp] theorem State.advance_readByte (s : State) (x : Nat) : (s.advance).readByte x = s.readByte x := rfl

/-! ### jumpTo -/

@[simp] theorem State.jumpTo_regs (s : State) (t : Word) : (s.jumpTo t).regs = s.regs.set .IP (t - 1) := rfl
@[simp] theorem State.jumpTo_flags (s : State) (t : Word) : (s.jumpTo t).flags = s.flags := rfl
@[simp] theorem State.jumpTo_status (s : State) (t : Word) : (s.jumpTo t).status = s.status := rfl
@[simp] theorem State.jumpTo_segment (s : State) (t : Word) : (s.jumpTo t).segment = s.segment := rfl
@[simp] theorem State.jumpTo_dst (s : State) (t : Word) : (s.jumpTo t).dst = s.dst := rfl
@[simp] theorem State.jumpTo_labels (s : State) (t : Word) : (s.jumpTo t).labels = s.labels := rfl
@[simp] theorem State.jumpTo_procs (s : State) (t : Word) : (s.jumpTo t).procs = s.procs := rfl
@[simp] theorem State.jumpTo_cstack (s : State) (t : Word) : (s.jumpTo t).cstack = s.cstack := rfl
@[simp] theorem State.jumpTo_mem (s : State) (t : Word) : (s.jumpTo t).mem = s.mem := rfl
@[simp] theorem State.jumpTo_devices (s : State) (t : Word) : (s.jumpTo t).devices = s.devices := rfl
@[simp] theorem State.jumpTo_timers (s : State) (t : Word) : (s.jumpTo t).timers = s.timers := rfl
@[simp] theorem State.jumpTo_ppi (s : State) (t : Word) : (s.jumpTo t).ppi = s.ppi := rfl
@[simp] theorem State.jumpTo_pic (s : State) (t : Word) : (s.jumpTo t).pic = s.pic := rfl
@[simp] theorem State.jumpTo_diags (s : State) (t : Word) : (s.jumpTo t).diags = s.diags := rfl
@[simp] theorem State.jumpTo_program (s : State) (t : Word) : (s.jumpTo t).program = s.program := rfl
@[simp] theorem State.jumpTo_readByte (s : State) (t : Word) (x : Nat) : (s.jumpTo t).readByte x = s.readByte x := rfl

/-! ### stepPointers -/

@[simp] theorem State.stepPointers_flags (s : State) (w : Word) : (s.stepPointers w).flags = s.flags := rfl
@[simp] theorem State.stepPointers_status (s : State) (w : Word) : (s.stepPointers w).status = s.status := rfl
@[simp] theorem State.stepPointers_segment (s : State) (w : Word) : (s.stepPointers w).segment = s.segment := rfl
@[simp] theorem State.stepPointers_dst (s : State) (w : Word) : (s.stepPointers w).dst = s.dst := rfl
@[simp] theorem State.stepPointers_labels (s : State) (w : Word) : (s.stepPointers w).labels = s.labels := rfl
@[simp] theorem State.stepPointers_procs (s : State) (w : Word) : (s.stepPointers w).procs = s.procs := rfl
@[simp] theorem State.stepPointers_cstack (s : State) (w : Word) : (s.stepPointers w).cstack = s.cstack := rfl
@[simp] theorem State.stepPointers_mem (s : State) (w : Word) : (s.stepPointers w).mem = s.mem := rfl
@[simp] theorem State.stepPointers_devices (s : State) (w : Word) : (s.stepPointers w).devices = s.devices := rfl
@[simp] theorem State.stepPointers_timers (s : State) (w : Word) : (s.stepPointers w).timers = s.timers := rfl
@[simp] theorem State.stepPointers_ppi (s : State) (w : Word) : (s.stepPointers w).ppi = s.ppi := rfl
@[simp] theorem State.stepPointers_pic (s : State) (w : Word) : (s.stepPointers w).pic = s.pic := rfl
@[simp] theorem State.stepPointers_diags (s : State) (w : Word) : (s.stepPointers w).diags = s.diags := rfl
@[simp] theorem State.stepPointers_program (s : State) (w : Word) : (s.stepPointers w).program = s.program := rfl
@[simp] theorem State.stepPointers_readByte (s : State) (w : Word) (x : Nat) : (s.stepPointers w).readByte x = s.readByte x := rfl

/-! ### compare -/

@[simp] theorem State.compare_regs (s : State) (a b : Word) : (s.compare a b).regs = s.regs := rfl
@[simp] theorem State.compare_flags (s : State) (a b : Word) : (s.compare a b).flags = (aluSub a b (carryIn s.flags) s.flags).flags := rfl
@[simp] theorem State.compare_status (s : State) (a b : Word) : (s.compare a b).status = s.status := rfl
@[simp] theorem State.compare_segment (s : State) (a b : Word) : (s.compare a b).segment = s.segment := rfl
@[simp] theorem State.compare_dst (s : State) (a b : Word) : (s.compare a b).dst = s.dst := rfl
@[simp] theorem State.compare_labels (s : State) (a b : Word) : (s.compare a b).labels = s.labels := rfl
@[simp] theorem State.compare_procs (s : State) (a b : Word) : (s.compare a b).procs = s.procs := rfl
@[simp] theorem State.compare_cstack (s : State) (a b : Word) : (s.compare a b).cstack = s.cstack := rfl
@[simp] theorem State.compare_mem (s : State) (a b : Word) : (s.compare a b).mem = s.mem := rfl
@[simp] theorem State.compare_devices (s : State) (a b : Word) : (s.compare a b).devices = s.devices := rfl
@[simp] theorem State.compare_timers (s : State) (a b : Word) : (s.compare a b).timers = s.timers := rfl
@[simp] theorem State.compare_ppi (s : State) (a b : Word) : (s.compare a b).ppi = s.ppi := rfl
@[simp] theorem State.compare_pic (s : State) (a b : Word) : (s.compare a b).pic = s.pic := rfl
@[simp] theorem State.compare_diags (s : State) (a b : Word) : (s.compare a b).diags = s.diags := rfl
@[simp] theorem State.compare_program (s : State) (a b : Word) : (s.compare a b).program = s.program := rfl
@[simp] theorem State.compare_getReg (s : State) (a b : Word) (q : Reg) : (s.compare a b).getReg q = s.getReg q := rfl
@[simp] theorem State.compare_readByte (s : State) (a b : Word) (x : Nat) : (s.compare a b).readByte x = s.readByte x := rfl

/-! ### defineData -/

@[simp] theorem State.defineData_regs (s : State) (l : Token) (v : Int) : (s.defineData l v).regs = s.regs := rfl
@[simp] theorem State.defineData_flags (s : State) (l : Token) (v : Int) : (s.defineData l v).flags = s.flags := rfl
@[simp] theorem State.defineData_status (s : State) (l : Token) (v : Int) : (s.defineData l v).status = s.status := rfl
@[simp] theorem State.defineData_segment (s : State) (l : Token) (v : Int) : (s.defineData l v).segment = s.segment := rfl
@[simp] theorem State.defineData_dst (s : State) (l : Token) (v : Int) : (s.defineData l v).dst = s.dst.insert l (u16 v) := rfl
@[simp] theorem State.defineData_labels (s : State) (l : Token) (v : Int) : (s.defineData l v).labels = s.labels := rfl
@[simp] theorem State.defineData_procs (s : State) (l : Token) (v : Int) : (s.defineData l v).procs = s.procs := rfl
@[simp] theorem State.defineData_cstack (s : State) (l : Token) (v : Int) : (s.defineData l v).cstack = s.cstack := rfl
@[simp] theorem State.defineData_mem (s : State) (l : Token) (v : Int) : (s.defineData l v).mem = s.mem := rfl
@[simp] theorem State.defineData_devices (s : State) (l : Token) (v : Int) : (s.defineData l v).devices = s.devices := rfl
@[simp] theorem State.defineData_timers (s : State) (l : Token) (v : Int) : (s.defineData l v).timers = s.timers := rfl
@[simp] theorem State.defineData_ppi (s : State) (l : Token) (v : Int) : (s.defineData l v).ppi = s.ppi := rfl
@[simp] theorem State.defineData_pic (s : State) (l : Token) (v : Int) : (s.defineData l v).pic = s.pic := rfl
@[simp] theorem State.defineData_diags (s : State) (l : Token) (v : Int) : (s.defineData l v).diags = s.diags := rfl
@[simp] theorem State.defineData_program (s : State) (l : Token) (v : Int) : (s.defineData l v).program = s.program := rfl
@[simp] theorem State.defineData_getReg (s : State) (l : Token) (v : Int) (q : Reg) : (s.defineData l v).getReg q = s.getReg q := rfl
@[simp] theorem State.defineData_readByte (s : State) (l : Token) (v : Int) (x : Nat) : (s.defineData l v).readByte x = s.readByte x := rfl

/-! ### Registers -/

@[simp] theorem Regs.get_set_same (f : Regs) (r : Reg) (v : Word) : (f.set r v).get r = v := by
  cases r <;> rfl

theorem Regs.get_set_of_ne (f : Regs) (r q : Reg) (v : Word) (h : q ≠ r) : (f.set r v).get q = f.get q := by
  cases r <;> cases q <;> first | rfl | exact absurd rfl h

theorem Regs.get_set (f : Regs) (r q : Reg) (v : Word) :
    (f.set r v).get q = if q = r then v else f.get q := by
  by_cases h : q = r
  · subst h; simp
  · simp [h, Regs.get_set_of_ne f r q v h]

@[simp] theorem State.setReg_getReg (s : State) (r q : Reg) (v : Word) :
    (s.setReg r v).getReg q = if q = r then v else s.getReg q := Regs.get_set s.regs r q v

@[simp] theorem State.advance_getReg (s : State) (q : Reg) :
    s.advance.getReg q = if q = .IP then s.getReg .IP + 1 else s.getReg q :=
  State.setReg_getReg s .IP q _

@[simp] theorem State.jumpTo_getReg (s : State) (t : Word) (q : Reg) :
    (s.jumpTo t).getReg q = if q = .IP then t - 1 else s.getReg q :=
  State.setReg_getReg s .IP q _

theorem State.stepPointers_getReg (s : State) (w : Word) (q : Reg) :
    (s.stepPointers w).getReg q =
      if q = .SI ∨ q = .DI then s.getReg q + delta w s else s.getReg q := by
  cases q <;> simp [State.stepPointers]

/-! ### Status -/

@[simp] theorem State.raise_failed (s : State) (e : FatalError) : (s.raise e).failed = true := rfl

theorem State.failed_iff (s : State) : s.failed = true ↔ ∃ e, s.status = .error e := by
  unfold State.failed
  split
  · next e h => simp [h]
  · next h => simp only [Bool.false_eq_true, false_iff]; rintro ⟨e, he⟩; exact h e he

end Sys2Proof.Machine
end

