-- ==== Sys2Proof/Laws/Operations.lean ====
section
/-! SUPPORT. For each shared operation one lemma that says everything it can do. -/

namespace Sys2Proof.Machine

/-- A committed line answers its result, or the state before it with the error's status. -/
theorem commit_cases {s t : State} {x : Except FatalError State} (h : commit s x = .next t) :
    x = .ok t ∨ ∃ e, x = .error e ∧ t = s.raise e := by
  cases x with
  | ok u => exact .inl (by simpa [commit] using h)
  | error e => exact .inr ⟨e, rfl, by simpa [commit] using h.symm⟩

@[simp] theorem commit_ok (s t : State) : commit s (.ok t) = .next t := rfl

@[simp] theorem commit_error (s : State) (e : FatalError) : commit s (.error e) = .next (s.raise e) := rfl

/-- A write through a destination is one of the three stores of R127. -/
theorem storeAt_cases {d : Dest} {v : Word} {s t : State} (h : storeAt d v s = .ok t) :
    (∃ r, d = .reg r ∧ t = s.setReg r v) ∨
    (∃ k, d = .label k ∧ t = { s with dst := s.dst.insert k v }) ∨
    (∃ a : Int, d = .memory a ∧ (0 ≤ a ∧ a + 2 ≤ 256) ∧
      t = (s.writeByte a.toNat (hiByte v)).writeByte (a.toNat + 1) (loByte v)) := by
  cases d with
  | reg r => exact .inl ⟨r, rfl, by simpa [storeAt] using h.symm⟩
  | label k => exact .inr (.inl ⟨k, rfl, by simpa [storeAt] using h.symm⟩)
  | memory a =>
    obtain ⟨hr, ht⟩ := State.memWrite2_ok (s := s) (a := a) (v := v) h
    exact .inr (.inr ⟨a, rfl, hr, ht⟩)

/-- `WriteOp` that succeeds stores at the operand's destination. -/
theorem writeOp_ok {o : Operand} {v : Word} {s t : State} (h : writeOp o v s = .ok t) :
    ∃ d, dest? o s = some d ∧ storeAt d v s = .ok t := by
  unfold writeOp at h
  split at h
  · next d hd => exact ⟨d, hd, h⟩
  · cases h

theorem writeOp_of_dest {o : Operand} {v : Word} {s : State} {d : Dest} (h : dest? o s = some d) :
    writeOp o v s = storeAt d v s := by simp [writeOp, h]

/-- A two-operand ALU line completes with its three accesses, or raises the first error among them (R211, R406). -/
theorem aluLine2_cases {op : Word → Word → Flags → AluOut} {dst src : Operand} {s t : State}
    (h : aluLine2 op dst src s = .next t) :
    (∃ a b u, readOp dst s = .ok a ∧ readOp src s = .ok b ∧ writeOp dst (op a b s.flags).value s = .ok u ∧
      t = u.setFlags (op a b s.flags).flags) ∨ ∃ e, t = s.raise e := by
  unfold aluLine2 at h
  cases ha : readOp dst s with
  | error e => exact .inr ⟨e, by simpa [ha, bind, Except.bind, commit] using h.symm⟩
  | ok a =>
    cases hb : readOp src s with
    | error e => exact .inr ⟨e, by simpa [ha, hb, bind, Except.bind, commit] using h.symm⟩
    | ok b =>
      cases hw : writeOp dst (op a b s.flags).value s with
      | error e => exact .inr ⟨e, by simpa [ha, hb, hw, bind, Except.bind, commit] using h.symm⟩
      | ok u => exact .inl ⟨a, b, u, rfl, rfl, hw, by simpa [ha, hb, hw, bind, Except.bind, commit] using h.symm⟩

/-- A one-operand ALU line completes with its two accesses, or raises the first error among them (R218, R406). -/
theorem aluLine1_cases {op : Word → Flags → AluOut} {dst : Operand} {s t : State}
    (h : aluLine1 op dst s = .next t) :
    (∃ a u, readOp dst s = .ok a ∧ writeOp dst (op a s.flags).value s = .ok u ∧
      t = u.setFlags (op a s.flags).flags) ∨ ∃ e, t = s.raise e := by
  unfold aluLine1 at h
  cases ha : readOp dst s with
  | error e => exact .inr ⟨e, by simpa [ha, bind, Except.bind, commit] using h.symm⟩
  | ok a =>
    cases hw : writeOp dst (op a s.flags).value s with
    | error e => exact .inr ⟨e, by simpa [ha, hw, bind, Except.bind, commit] using h.symm⟩
    | ok u => exact .inl ⟨a, u, rfl, hw, by simpa [ha, hw, bind, Except.bind, commit] using h.symm⟩

/-- A timer operation changes one existing channel, or emits InvalidChannel (R425). -/
theorem onChannel_cases (c : Int) (f : TimerChannel → TimerChannel) (s : State) :
    ((0 ≤ c ∧ c < s.timers.length) ∧ onChannel c f s = { s with timers := updateAt f c.toNat s.timers }) ∨
    (¬(0 ≤ c ∧ c < s.timers.length) ∧ onChannel c f s = s.emit (.invalidChannel c)) := by
  cases c with
  | ofNat n =>
    by_cases h : n < s.timers.length
    · refine .inl ⟨by simp [h], ?_⟩
      simp [onChannel, h]
    · refine .inr ⟨by simpa using h, ?_⟩
      simp [onChannel, h]
  | negSucc n => exact .inr ⟨by omega, rfl⟩

@[simp] theorem updateAt_length {α : Type} (f : α → α) (n : Nat) (l : List α) : (updateAt f n l).length = l.length := by
  induction l generalizing n with
  | nil => cases n <;> rfl
  | cons x l ih => cases n <;> simp [updateAt, ih]

theorem updateAt_getElem? {α : Type} (f : α → α) (n m : Nat) (l : List α) :
    (updateAt f n l)[m]? = if m = n then (l[m]?).map f else l[m]? := by
  induction l generalizing n m with
  | nil => cases n <;> simp [updateAt]
  | cons x l ih => cases n <;> cases m <;> simp [updateAt, ih]

theorem updateAt_forall {α : Type} {P : α → Prop} {f : α → α} (hf : ∀ x, P x → P (f x)) (n : Nat) (l : List α)
    (h : ∀ x ∈ l, P x) : ∀ x ∈ updateAt f n l, P x := by
  induction l generalizing n with
  | nil => cases n <;> simp [updateAt]
  | cons y l ih =>
    have hy := h y (by simp)
    have hl : ∀ x ∈ l, P x := fun x hx => h x (by simp [hx])
    cases n with
    | zero => simpa [updateAt] using ⟨hf y hy, hl⟩
    | succ n => simpa [updateAt] using ⟨hy, ih n hl⟩

/-- The check of an IRQ number passes on 0 to 7 and emits InvalidIRQ elsewhere (R448). -/
theorem withIrq_valid {α : Type} (k : Fin 8) (f : Fin 8 → α → α) (x : α) : withIrq (k.val : Int) f x = (f k x, []) := by
  unfold withIrq
  have h : (0 : Int) ≤ (k.val : Int) ∧ (k.val : Int) ≤ 7 := by omega
  simp [h]

theorem withIrq_invalid {α : Type} (k : Int) (h : k < 0 ∨ 7 < k) (f : Fin 8 → α → α) (x : α) :
    withIrq k f x = (x, [.invalidIRQ k]) := by
  unfold withIrq
  rw [dif_neg (by omega)]

/-- A byte written through the PPI with the write gating of WRITE_CTRL and WRITE_PORT, at a legal address. -/
theorem writeRegister_eq (a1 a0 : Bool) (b : Byte) (s : State) :
    writeRegister (if a1 then 1 else 0, if a0 then 1 else 0) b s =
      { s with ppi := ({ s.ppi with a1 := a1, a0 := a0, rd := true, wr := false, cs := false, data := b } : Ppi).setSelected b } := by
  cases a1 <;> cases a0 <;> rfl

/-- The fetch loop after a line that raised nothing. -/
theorem State.retire_ok {s : State} (h : s.failed = false) : s.retire = s.advance := by simp [State.retire, h]

@[simp] theorem State.retire_raise (s : State) (e : FatalError) : (s.raise e).retire = s.raise e := rfl

/-! ## Every instruction and every step answers a next state -/

theorem commit_next (s : State) (x : Except FatalError State) : ∃ t, commit s x = .next t := by
  cases x with
  | ok t => exact ⟨t, rfl⟩
  | error e => exact ⟨s.raise e, rfl⟩

/-- No instruction faults or is refused: a fatal error is a next state too (R402). -/
theorem exec_next (i : Instr) (s : State) : ∃ t, exec i s = .next t := by
  cases i with
  | pop dst =>
    simp only [exec, execPop]
    split
    · exact ⟨_, rfl⟩
    · exact commit_next _ _
  | ret =>
    simp only [exec, execRet]
    split <;> exact ⟨_, rfl⟩
  | status dev => cases dev <;> exact ⟨_, rfl⟩
  | writePort port b => cases port <;> exact ⟨_, rfl⟩
  | readPort port => cases port <;> exact ⟨_, rfl⟩
  | movsb => simp only [exec, execMovsb]; exact commit_next _ _
  | movsw => simp only [exec, execMovsw]; exact commit_next _ _
  | cmpsb => simp only [exec, execCmpsb]; exact commit_next _ _
  | cmpsw => simp only [exec, execCmpsw]; exact commit_next _ _
  | _ => first | exact commit_next _ _ | exact ⟨_, rfl⟩

/-- A machine always steps. -/
theorem step_next (s : State) : ∃ t, step s = .next t := by
  unfold step
  split
  · split
    · exact ⟨_, rfl⟩
    · split
      · next i _ =>
        obtain ⟨t, ht⟩ := exec_next i s
        exact ⟨t.retire, by rw [ht, finish]⟩
      · exact ⟨_, rfl⟩
  · exact ⟨_, rfl⟩
  · exact ⟨_, rfl⟩
  · exact ⟨_, rfl⟩

end Sys2Proof.Machine
end

