-- ==== Sys2Proof/Laws/Alu.lean ====
section
/-! SUPPORT. What each ALU operation computes, in BitVec arithmetic, and the frame of a write through an operand. -/

namespace Sys2Proof.Machine

theorem sign_eq_msb (v : Word) : sign v = v.msb := by simp [sign, BitVec.msb_eq_getLsbD_last]

@[simp] theorem u16_natCast (n : Nat) : u16 (n : Int) = BitVec.ofNat 16 n := by
  simp [u16]

@[simp] theorem carryIn_eq (f : Flags) : carryIn f = false := rfl

theorem u16_natAdd (a b : Word) : u16 ((a.toNat : Int) + b.toNat) = a + b := by
  apply BitVec.eq_of_toNat_eq
  simp only [u16, BitVec.toNat_ofInt, BitVec.toNat_add]
  omega

theorem u16_borrow (a b : Word) :
    u16 (if (a.toNat : Int) - b.toNat < 0 then (a.toNat : Int) - b.toNat + 65536 else (a.toNat : Int) - b.toNat) =
      a - b := by
  have ha := a.isLt
  have hb := b.isLt
  apply BitVec.eq_of_toNat_eq
  simp only [u16, BitVec.toNat_ofInt, BitVec.toNat_sub]
  split_ifs <;> omega

/-- ALU_ADD with no carry-in (R202). -/
theorem aluAdd_eq (a b : Word) (f : Flags) :
    aluAdd a b (carryIn f) f =
      { value := a + b
        flags := { f with
          CF := decide (65535 < a.toNat + b.toNat)
          OF := decide (a.msb = b.msb ∧ (a + b).msb ≠ a.msb)
          ZF := decide (a + b = 0)
          SF := (a + b).msb } } := by
  simp only [aluAdd, carryIn_eq, Bool.toNat_false, Nat.add_zero, Nat.cast_add, u16_natAdd, Flags.withResult,
    sign_eq_msb]
  simp
  rfl

/-- ALU_SUB with no carry-in (R203). -/
theorem aluSub_eq (a b : Word) (f : Flags) :
    aluSub a b (carryIn f) f =
      { value := a - b
        flags := { f with
          CF := decide (a.toNat < b.toNat)
          OF := decide (a.msb ≠ b.msb ∧ (a - b).msb ≠ a.msb)
          ZF := decide (a - b = 0)
          SF := (a - b).msb } } := by
  have h : ((a.toNat : Int) - b.toNat < 0) ↔ a.toNat < b.toNat := by omega
  simp only [aluSub, carryIn_eq, Bool.toNat_false, Nat.cast_zero, Int.sub_zero, u16_borrow, Flags.withResult,
    sign_eq_msb]
  simp [h]

/-- ALU_MUL (R204). -/
theorem aluMul_eq (a b : Word) (f : Flags) :
    aluMul a b f = { value := a * b, flags := { f with ZF := decide (a * b = 0), SF := (a * b).msb } } := by
  have h : u16 ((a.toNat * b.toNat : Nat) : Int) = a * b := by
    apply BitVec.eq_of_toNat_eq
    rw [u16_natCast, BitVec.toNat_ofNat, BitVec.toNat_mul]
  simp only [aluMul, h, Flags.withResult, sign_eq_msb]

/-- ALU_DIV (R205): the unsigned division of bit vectors has 0 as its quotient by 0. -/
theorem aluDiv_eq (a b : Word) (f : Flags) :
    aluDiv a b f = { value := a / b, flags := { f with ZF := decide (a / b = 0), SF := (a / b).msb } } := by
  have h : (if b = 0 then 0 else u16 ((a.toNat / b.toNat : Nat) : Int)) = a / b := by
    apply BitVec.eq_of_toNat_eq
    have hd := Nat.div_le_self a.toNat b.toNat
    have ha := a.isLt
    split_ifs with hb
    · subst hb; simp
    · rw [u16_natCast, BitVec.toNat_ofNat, BitVec.toNat_udiv, Nat.mod_eq_of_lt (by omega)]
  simp only [aluDiv, h, Flags.withResult, sign_eq_msb]

/-- ALU_AND (R206). -/
theorem aluAnd_eq (a b : Word) (f : Flags) :
    aluAnd a b f = { value := a &&& b, flags := { f with ZF := decide (a &&& b = 0), SF := (a &&& b).msb } } := by
  simp only [aluAnd, Flags.withResult, sign_eq_msb]

/-- ALU_OR (R206). -/
theorem aluOr_eq (a b : Word) (f : Flags) :
    aluOr a b f = { value := a ||| b, flags := { f with ZF := decide (a ||| b = 0), SF := (a ||| b).msb } } := by
  simp only [aluOr, Flags.withResult, sign_eq_msb]

/-- ALU_XOR (R206). -/
theorem aluXor_eq (a b : Word) (f : Flags) :
    aluXor a b f = { value := a ^^^ b, flags := { f with ZF := decide (a ^^^ b = 0), SF := (a ^^^ b).msb } } := by
  simp only [aluXor, Flags.withResult, sign_eq_msb]

/-- ALU_NOT (R207). -/
theorem aluNot_eq (a : Word) (f : Flags) :
    aluNot a f = { value := ~~~a, flags := { f with ZF := decide (~~~a = 0), SF := (~~~a).msb } } := by
  have h : u16 (65535 - a.toNat) = ~~~a := by
    have ha := a.isLt
    apply BitVec.eq_of_toNat_eq
    simp only [u16, BitVec.toNat_ofInt, BitVec.toNat_not]
    omega
  simp only [aluNot, h, Flags.withResult, sign_eq_msb]

/-- A completed two-operand ALU line (R211). -/
theorem aluLine2_ok {op : Word → Word → Flags → AluOut} {dst src : Operand} {s t : State} {a b : Word}
    (ha : readOp dst s = .ok a) (hb : readOp src s = .ok b) (hw : writeOp dst (op a b s.flags).value s = .ok t) :
    aluLine2 op dst src s = .next (t.setFlags (op a b s.flags).flags) := by
  simp [aluLine2, ha, hb, hw, bind, Except.bind, commit]

/-- A completed one-operand ALU line (R218). -/
theorem aluLine1_ok {op : Word → Flags → AluOut} {dst : Operand} {s t : State} {a : Word}
    (ha : readOp dst s = .ok a) (hw : writeOp dst (op a s.flags).value s = .ok t) :
    aluLine1 op dst s = .next (t.setFlags (op a s.flags).flags) := by
  simp [aluLine1, ha, hw, bind, Except.bind, commit]

end Sys2Proof.Machine
end

