-- ==== Sys2Proof/Laws/Lex.lean ====
section
/-! SUPPORT. The names and literals the encoder writes are tokens, and reading each gives back what it spells. -/

namespace Sys2Proof

/-! ## Names -/

theorem Reg.text_isToken (r : Reg) : isToken r.text = true := by cases r <;> decide
theorem Mnemonic.text_isToken (m : Mnemonic) : isToken m.text = true := by cases m <;> decide
theorem Device.text_isToken (d : Device) : isToken d.text = true := by cases d <;> decide
theorem Port.text_isToken (p : Port) : isToken p.text = true := by cases p <;> decide
theorem VoiceCode.text_isToken (c : VoiceCode) : isToken c.text = true := by cases c <;> decide

theorem regName?_text (r : Reg) : regName? r.text = some r := by cases r <;> decide
theorem mnemonic?_text (m : Mnemonic) : mnemonic? m.text = some m := by cases m <;> decide
theorem deviceName?_text (d : Device) : deviceName? d.text = some d := by cases d <;> decide
theorem portName?_text (p : Port) : portName? p.text = some p := by cases p <;> decide
theorem voiceCode?_text (c : VoiceCode) : voiceCode? c.text = some c := by cases c <;> decide

theorem Mnemonic.text_no_colon (m : Mnemonic) : endsWithColon m.text = false := by cases m <;> decide

/-- The register a token names has that token as its spelling. -/
theorem regName?_eq_some {t : Token} {r : Reg} (h : regName? t = some r) : r.text = t := by
  simpa using List.find?_some h

/-- The mnemonic a token spells has that token as its text. -/
theorem mnemonic?_eq_some {t : Token} {m : Mnemonic} (h : mnemonic? t = some m) : m.text = t := by
  simpa using List.find?_some h

/-- A token spells no mnemonic exactly where it is no mnemonic's text. -/
theorem mnemonic?_eq_none {t : Token} : mnemonic? t = none ↔ ∀ m : Mnemonic, m.text ≠ t := by
  constructor
  · rintro h m rfl
    rw [mnemonic?_text] at h
    cases h
  · intro h
    cases hm : mnemonic? t with
    | none => rfl
    | some m => exact absurd (mnemonic?_eq_some hm) (h m)

/-! ## Digits and literals -/

theorem digitChar_isTokenChar (d : Nat) (h : d < 10) : isTokenChar (digitChar d) = true := by
  have := (by decide : ∀ d : Fin 10, isTokenChar (digitChar d.val) = true)
  exact this ⟨d, h⟩

theorem digitValue?_digitChar (d : Nat) (h : d < 10) : digitValue? (digitChar d) = some d := by
  have := (by decide : ∀ d : Fin 10, digitValue? (digitChar d.val) = some d.val)
  exact this ⟨d, h⟩

theorem hexChar_isTokenChar (d : Nat) (h : d < 16) : isTokenChar (hexChar d) = true := by
  have := (by decide : ∀ d : Fin 16, isTokenChar (hexChar d.val) = true)
  exact this ⟨d, h⟩

theorem hexDigitValue?_hexChar (d : Nat) (h : d < 16) : hexDigitValue? (hexChar d) = some d := by
  have := (by decide : ∀ d : Fin 16, hexDigitValue? (hexChar d.val) = some d.val)
  exact this ⟨d, h⟩

theorem decimalDigits_ne_nil (fuel n : Nat) : decimalDigits fuel n ≠ [] := by
  cases fuel with
  | zero => simp [decimalDigits]
  | succ k => simp only [decimalDigits]; split_ifs <;> simp

theorem decimalDigits_all (fuel n : Nat) : (decimalDigits fuel n).all isTokenChar = true := by
  induction fuel generalizing n with
  | zero => simp [decimalDigits, digitChar_isTokenChar _ (Nat.mod_lt n (by decide))]
  | succ k ih =>
    simp only [decimalDigits]
    split_ifs with h
    · simp [digitChar_isTokenChar n h]
    · simp [ih, digitChar_isTokenChar _ (Nat.mod_lt n (by decide))]

theorem isToken_of {t : Token} (h : t ≠ []) (ha : t.all isTokenChar = true) : isToken t = true := by
  simp only [isToken, ha, Bool.and_true, Bool.not_eq_true', List.isEmpty_eq_false_iff]
  exact h

theorem natToken_isToken (n : Nat) : isToken (natToken n) = true :=
  isToken_of (decimalDigits_ne_nil n n) (decimalDigits_all n n)

theorem intToken_isToken (n : Int) : isToken (intToken n) = true := by
  cases n with
  | ofNat n => exact natToken_isToken n
  | negSucc n =>
    refine isToken_of (by simp [intToken]) ?_
    simp only [intToken, natToken, List.all_cons, decimalDigits_all, Bool.and_true]
    decide

theorem byteToken_isToken (b : Byte) : isToken (byteToken b) = true := by
  have h := b.isLt
  refine isToken_of (by simp [byteToken]) ?_
  simp only [byteToken, List.all_cons, List.all_nil, Bool.and_true, Bool.and_eq_true]
  exact ⟨hexChar_isTokenChar _ (by omega), hexChar_isTokenChar _ (by omega)⟩

/-! ## Operand tokens -/

theorem Operand.tok_isToken {o : Operand} (h : o.wf = true) : isToken o.tok = true := by
  simp only [Operand.wf, Bool.and_eq_true] at h
  exact h.1

theorem VoiceArg.token_isToken {c : VoiceArg} (h : c.wf = true) : isToken c.token = true := by
  cases c with
  | code c => exact VoiceCode.text_isToken c
  | unknown t => simp only [VoiceArg.wf, Bool.and_eq_true] at h; exact h.1

theorem DeviceArg.token_isToken {d : DeviceArg} (h : d.wf = true) : isToken d.token = true := by
  cases d with
  | device d => exact Device.text_isToken d
  | unknown t => simp only [DeviceArg.wf, Bool.and_eq_true] at h; exact h.1

theorem PortArg.token_isToken {p : PortArg} (h : p.wf = true) : isToken p.token = true := by
  cases p with
  | port p => exact Port.text_isToken p
  | unknown t => simp only [PortArg.wf, Bool.and_eq_true] at h; exact h.1

end Sys2Proof
end

