-- ==== Sys2Proof/Laws/Operands.lean ====
section
/-! SUPPORT. The bytes of a word, the bits of a device register, the forms of a bracket token, and the frame of a write
through an operand. -/

namespace Sys2Proof.Machine

/-! ## Bytes and words (R83, R85, R87) -/

theorem joinBytes_toNat (hi lo : Byte) : (joinBytes hi lo).toNat = 256 * hi.toNat + lo.toNat := by
  have h := lo.isLt
  rw [joinBytes, BitVec.toNat_append, ← Nat.shiftLeft_add_eq_or_of_lt h, Nat.shiftLeft_eq]
  omega

theorem hiByte_toNat (v : Word) : (hiByte v).toNat = v.toNat / 256 := by
  have h := v.isLt
  simp only [hiByte, BitVec.extractLsb'_toNat, Nat.shiftRight_eq_div_pow]
  omega

theorem loByte_toNat (v : Word) : (loByte v).toNat = v.toNat % 256 := by
  simp [loByte]

theorem hiByte_joinBytes (hi lo : Byte) : hiByte (joinBytes hi lo) = hi := by
  apply BitVec.eq_of_toNat_eq
  have := lo.isLt
  rw [hiByte_toNat, joinBytes_toNat]
  omega

theorem loByte_joinBytes (hi lo : Byte) : loByte (joinBytes hi lo) = lo := by
  apply BitVec.eq_of_toNat_eq
  have := lo.isLt
  rw [loByte_toNat, joinBytes_toNat]
  omega

theorem joinBytes_hiByte_loByte (v : Word) : joinBytes (hiByte v) (loByte v) = v := by
  apply BitVec.eq_of_toNat_eq
  rw [joinBytes_toNat, hiByte_toNat, loByte_toNat]
  omega
/-! ## The bits of a device register (R441 to R446) -/

theorem bitMask_getLsbD (k : Fin 8) (j : Nat) : (bitMask k).getLsbD j = decide (j = k.val) := by
  simp [bitMask, BitVec.getLsbD_twoPow]
  omega

theorem setBit_getLsbD (b : Byte) (k : Fin 8) (j : Nat) :
    (setBit b k).getLsbD j = (b.getLsbD j || decide (j = k.val)) := by
  simp [setBit, bitMask_getLsbD]

theorem clearBit_getLsbD (b : Byte) (k : Fin 8) (j : Nat) :
    (clearBit b k).getLsbD j = (b.getLsbD j && !decide (j = k.val)) := by
  rw [clearBit, BitVec.getLsbD_and, BitVec.getLsbD_not, bitMask_getLsbD]
  by_cases h : j < 8
  · simp [h]
  · simp [BitVec.getLsbD_of_ge b j (by omega)]

/-! ## Writing through a destination (R127) -/

/-- A store changes its destination and nothing else. -/
theorem store_frame {d : Dest} {v : Word} {s t : State} (h : storeAt d v s = .ok t) :
    SameRegsExcept (fun r => d = .reg r) s t ∧
    SameBytesExcept (Dest.Covers (some d)) s t ∧
    (∀ k, d ≠ .label k → t.dst.find? k = s.dst.find? k) ∧
    t.flags = s.flags ∧ SameTargets s t ∧ SameUnits s t ∧ t.status = s.status ∧ t.devices = s.devices ∧
    t.segment = s.segment ∧ t.cstack = s.cstack ∧ t.diags = s.diags ∧ t.program = s.program := by
  rcases storeAt_cases h with ⟨r, rfl, rfl⟩ | ⟨k, rfl, rfl⟩ | ⟨a, rfl, ⟨h0, -⟩, rfl⟩
  · refine ⟨fun q hq => ?_, fun a _ => rfl, fun _ _ => rfl, rfl, ⟨rfl, rfl⟩,
      ⟨rfl, rfl, rfl⟩, rfl, rfl, rfl, rfl, rfl, rfl⟩
    rw [State.setReg_getReg, if_neg (fun e => hq (by rw [e]))]
  · refine ⟨fun q _ => rfl, fun a _ => rfl, fun q hq => ?_, rfl, ⟨rfl, rfl⟩,
      ⟨rfl, rfl, rfl⟩, rfl, rfl, rfl, rfl, rfl, rfl⟩
    show (s.dst.insert k v).find? q = _
    rw [Table.find?_insert, if_neg (fun e => hq (by rw [e]))]
  · refine ⟨fun q _ => rfl, fun x hx => ?_, fun _ _ => rfl, rfl, ⟨rfl, rfl⟩,
      ⟨rfl, rfl, rfl⟩, rfl, rfl, rfl, rfl, rfl, rfl⟩
    have h1 : x ≠ a.toNat := fun e => hx ⟨a, rfl, .inl (by omega)⟩
    have h2 : x ≠ a.toNat + 1 := fun e => hx ⟨a, rfl, .inr (by omega)⟩
    simp [h1, h2]

/-- `WriteOp` that succeeds changes its destination and nothing else. -/
theorem writeOp_frame {o : Operand} {v : Word} {s t : State} (h : writeOp o v s = .ok t) :
    SameRegsExcept (fun r => dest? o s = some (.reg r)) s t ∧
    SameBytesExcept (Dest.Covers (dest? o s)) s t ∧
    (∀ k, dest? o s ≠ some (.label k) → t.dst.find? k = s.dst.find? k) ∧
    t.flags = s.flags ∧ SameTargets s t ∧ SameUnits s t ∧ t.status = s.status ∧ t.devices = s.devices ∧
    t.segment = s.segment ∧ t.cstack = s.cstack ∧ t.diags = s.diags ∧ t.program = s.program := by
  obtain ⟨d, hd, hs⟩ := writeOp_ok h
  simp only [hd, Option.some.injEq, ne_eq]
  exact store_frame hs

/-- A write through an operand keeps the canonical form of data memory and of the Data Segment Table. -/
theorem writeOp_wf {o : Operand} {v : Word} {s t : State} (h : writeOp o v s = .ok t)
    (hm : Memory.wf s.mem = true) (hd : Table.wf s.dst = true) : Memory.wf t.mem = true ∧ Table.wf t.dst = true := by
  obtain ⟨d, -, hs⟩ := writeOp_ok h
  cases d with
  | reg r => obtain rfl := Except.ok.inj hs; exact ⟨hm, hd⟩
  | label k => obtain rfl := Except.ok.inj hs; exact ⟨hm, Table.insert_wf _ _ _ hd⟩
  | memory a =>
    refine ⟨State.memWrite2_wf (s := s) (a := a) (v := v) hs hm, ?_⟩
    obtain ⟨-, rfl⟩ := State.memWrite2_ok (s := s) (a := a) (v := v) hs
    exact hd

/-! ## Forms (R107) -/

/-- The two parts of a `+` never make a literal or a register name. -/
theorem sumForm_ne (l r : Token) : (∀ n, sumForm l r ≠ .imm n) ∧ ∀ q, sumForm l r ≠ .reg q := by
  unfold sumForm
  split
  · simp
  · split <;> simp
  · simp

/-- A bracket token is no literal and no register name. -/
theorem innerForm_ne (i : Token) : (∀ n, innerForm i ≠ .imm n) ∧ ∀ r, innerForm i ≠ .reg r := by
  unfold innerForm
  split
  · simp
  · split
    · simp
    · split
      · exact sumForm_ne _ _
      · simp

end Sys2Proof.Machine
end

