-- ==== Sys2Proof/Laws/PerInstr.lean ====
section
/-! SUPPORT. Per instruction: what the encoder writes for a well-formed instruction is a list of tokens as R101 makes them,
so that the tokens of the encoded line are those the encoder wrote. -/

namespace Sys2Proof.Laws

/-- Every token the encoder writes for a well-formed instruction is a token (R101). -/
def EncodeTokens.Statement (i : Instr) : Prop := i.wf = true → (encodeTokens i).all isToken = true

/-! ## The shapes -/

theorem all_two {a b : Token} (ha : isToken a = true) (hb : isToken b = true) : [a, b].all isToken = true := by
  simp [ha, hb]

theorem all_three {a b c : Token} (ha : isToken a = true) (hb : isToken b = true) (hc : isToken c = true) :
    [a, b, c].all isToken = true := by simp [ha, hb, hc]

theorem oneOperand_tokens {i : Instr} {m : Mnemonic} {o : Operand} (hw : i.wf = o.wf)
    (he : encodeTokens i = [m.text, o.tok]) : EncodeTokens.Statement i := fun h => by
  rw [he]
  exact all_two m.text_isToken (Operand.tok_isToken (hw ▸ h))

theorem twoOperands_tokens {i : Instr} {m : Mnemonic} {d s : Operand} (hw : i.wf = (d.wf && s.wf))
    (he : encodeTokens i = [m.text, d.tok, s.tok]) : EncodeTokens.Statement i := fun h => by
  rw [hw, Bool.and_eq_true] at h
  rw [he]
  exact all_three m.text_isToken (Operand.tok_isToken h.1) (Operand.tok_isToken h.2)

/-! ## One lemma per constructor -/

theorem EncodeTokens.mov (dst src : Operand) : EncodeTokens.Statement (.mov dst src) := twoOperands_tokens rfl rfl
theorem EncodeTokens.add (dst src : Operand) : EncodeTokens.Statement (.add dst src) := twoOperands_tokens rfl rfl
theorem EncodeTokens.sub (dst src : Operand) : EncodeTokens.Statement (.sub dst src) := twoOperands_tokens rfl rfl
theorem EncodeTokens.mul (dst src : Operand) : EncodeTokens.Statement (.mul dst src) := twoOperands_tokens rfl rfl
theorem EncodeTokens.div (dst src : Operand) : EncodeTokens.Statement (.div dst src) := twoOperands_tokens rfl rfl
theorem EncodeTokens.and (dst src : Operand) : EncodeTokens.Statement (.and dst src) := twoOperands_tokens rfl rfl
theorem EncodeTokens.or (dst src : Operand) : EncodeTokens.Statement (.or dst src) := twoOperands_tokens rfl rfl
theorem EncodeTokens.xor (dst src : Operand) : EncodeTokens.Statement (.xor dst src) := twoOperands_tokens rfl rfl
theorem EncodeTokens.not (dst : Operand) : EncodeTokens.Statement (.not dst) := oneOperand_tokens rfl rfl
theorem EncodeTokens.push (src : Operand) : EncodeTokens.Statement (.push src) := oneOperand_tokens rfl rfl
theorem EncodeTokens.pop (dst : Operand) : EncodeTokens.Statement (.pop dst) := oneOperand_tokens rfl rfl
theorem EncodeTokens.jmp (tgt : Operand) : EncodeTokens.Statement (.jmp tgt) := oneOperand_tokens rfl rfl
theorem EncodeTokens.call (tgt : Operand) : EncodeTokens.Statement (.call tgt) := oneOperand_tokens rfl rfl
theorem EncodeTokens.ret : EncodeTokens.Statement .ret := fun _ => by decide
theorem EncodeTokens.hlt : EncodeTokens.Statement .hlt := fun _ => by decide
theorem EncodeTokens.movsb : EncodeTokens.Statement .movsb := fun _ => by decide
theorem EncodeTokens.movsw : EncodeTokens.Statement .movsw := fun _ => by decide
theorem EncodeTokens.cmpsb : EncodeTokens.Statement .cmpsb := fun _ => by decide
theorem EncodeTokens.cmpsw : EncodeTokens.Statement .cmpsw := fun _ => by decide
theorem EncodeTokens.stc : EncodeTokens.Statement .stc := fun _ => by decide
theorem EncodeTokens.clc : EncodeTokens.Statement .clc := fun _ => by decide
theorem EncodeTokens.dotCode : EncodeTokens.Statement .dotCode := fun _ => by decide
theorem EncodeTokens.dotData : EncodeTokens.Statement .dotData := fun _ => by decide
theorem EncodeTokens.dotStack : EncodeTokens.Statement .dotStack := fun _ => by decide
theorem EncodeTokens.endp : EncodeTokens.Statement .endp := fun _ => by decide
theorem EncodeTokens.startTimer : EncodeTokens.Statement .startTimer := fun _ => by decide
theorem EncodeTokens.stopTimer : EncodeTokens.Statement .stopTimer := fun _ => by decide
theorem EncodeTokens.tickTimer : EncodeTokens.Statement .tickTimer := fun _ => by decide
theorem EncodeTokens.db (label : Token) (value : Int) : EncodeTokens.Statement (.db label value) := fun h =>
  all_three (Mnemonic.text_isToken _) h (intToken_isToken value)
theorem EncodeTokens.dw (label : Token) (value : Int) : EncodeTokens.Statement (.dw label value) := fun h =>
  all_three (Mnemonic.text_isToken _) h (intToken_isToken value)
theorem EncodeTokens.dd (label : Token) (value : Int) : EncodeTokens.Statement (.dd label value) := fun h =>
  all_three (Mnemonic.text_isToken _) h (intToken_isToken value)
theorem EncodeTokens.proc (name : Token) : EncodeTokens.Statement (.proc name) := fun h =>
  all_two (Mnemonic.text_isToken _) h
theorem EncodeTokens.voice (code : VoiceArg) : EncodeTokens.Statement (.voice code) := fun h =>
  all_two (Mnemonic.text_isToken _) (VoiceArg.token_isToken h)
theorem EncodeTokens.status (dev : DeviceArg) : EncodeTokens.Statement (.status dev) := fun h =>
  all_two (Mnemonic.text_isToken _) (DeviceArg.token_isToken h)
theorem EncodeTokens.configTimer (mode : Int) (value : Word) : EncodeTokens.Statement (.configTimer mode value) := fun _ =>
  all_three (Mnemonic.text_isToken _) (intToken_isToken mode) (natToken_isToken value.toNat)
theorem EncodeTokens.writeCtrl (b : Byte) : EncodeTokens.Statement (.writeCtrl b) := fun _ =>
  all_two (Mnemonic.text_isToken _) (byteToken_isToken b)
theorem EncodeTokens.writePort (port : PortArg) (b : Byte) : EncodeTokens.Statement (.writePort port b) := fun h =>
  all_three (Mnemonic.text_isToken _) (PortArg.token_isToken h) (byteToken_isToken b)
theorem EncodeTokens.readPort (port : PortArg) : EncodeTokens.Statement (.readPort port) := fun h =>
  all_two (Mnemonic.text_isToken _) (PortArg.token_isToken h)
theorem EncodeTokens.label (name : Token) : EncodeTokens.Statement (.label name) := fun h => by
  have h' : name.all isTokenChar = true := h
  have hc : isTokenChar ':' = true := by decide
  have ht : isToken (name ++ [':']) = true := isToken_of (by simp) (by simp only [List.all_append, h']; simp [hc])
  simp [encodeTokens, ht]
theorem EncodeTokens.empty : EncodeTokens.Statement .empty := fun _ => by decide
theorem EncodeTokens.unknown (tok : Token) : EncodeTokens.Statement (.unknown tok) := fun h => by
  simp only [Instr.wf, Bool.and_eq_true] at h
  simp [encodeTokens, h.1.1]

end Sys2Proof.Laws
end

