-- ==== Sys2Proof/Tests/Slice0.lean ====
section
/-! SUPPORT. Tests: a word of every row of the opcode table, ill-formed terms, vectors of 95_test_vectors.md, and for every
obligation with hypotheses a witness that meets them. -/

namespace Sys2Proof.Tests

open Sys2Proof.Machine

/-- The text of a test line. -/
def ln (text : String) : Line := text.toList

/-- The operand of a token. -/
def op (text : String) : Operand := operandOf (ln text)

/-- Reset with one timer channel and one controller: a state without the open parameters. -/
def base : State := { State.reset with timers := [TimerChannel.reset], pic := .single Pic.reset }

/-- A running machine about to run one line at index `ip`, everything else as `s` has it. -/
def at_ (s : State) (ip : Nat) (text : String) : State :=
  { s.setReg .IP (BitVec.ofNat 16 ip) with status := .running, program := placeLine (ln text) ip [] }

/-- The state after one step, `s` itself where there is none. -/
def after (s : State) : State :=
  match step s with
  | .next t => t
  | .fault _ => s
  | .refused _ => s

/-- The state an instruction answers, `s` itself where it answers none. -/
def result (i : Instr) (s : State) : State :=
  match exec i s with
  | .next t => t
  | .fault _ => s
  | .refused _ => s

/-- One line at index 0. -/
def run1 (s : State) (text : String) : State := after (at_ s 0 text)

/-- The start state of the operand vectors (95_test_vectors.md 2.4). -/
def opBase : State :=
  { ((((base.setReg .AX 0x10).setReg .BX 2).setReg .SI 3).setReg .IP 7) with
    mem := [(0x10, 0xAB), (0x11, 0xCD)], dst := [(['V'], 9)] }

/-- SI, DI and memory of a string instruction's test. -/
def strBase (si di : Word) (mem : Memory) : State := { (base.setReg .SI si).setReg .DI di with mem := mem }

/-! ## Decoding: one word of every row of the table (30_encoding.md R140, 95_test_vectors.md 2.3) -/

theorem test_decode_mov : decode (ln "MOV AX 5 ; load") = .ok (.mov ⟨['A', 'X'], .reg .AX⟩ ⟨['5'], .imm 5⟩) := by rfl
theorem test_decode_mov_tabs : decode (ln "MOV\tAX\t5") = .ok (.mov ⟨['A', 'X'], .reg .AX⟩ ⟨['5'], .imm 5⟩) := by rfl
theorem test_decode_add : decode (ln "ADD [16] -1") = .ok (.add ⟨['[', '1', '6', ']'], .direct 16⟩ ⟨['-', '1'], .imm (-1)⟩) := by
  rfl
theorem test_decode_sub : decode (ln "SUB CX +12") = .ok (.sub ⟨['C', 'X'], .reg .CX⟩ ⟨['+', '1', '2'], .imm 12⟩) := by rfl
theorem test_decode_mul : decode (ln "MUL SP BP") = .ok (.mul ⟨['S', 'P'], .reg .SP⟩ ⟨['B', 'P'], .reg .BP⟩) := by rfl
theorem test_decode_div : decode (ln "DIV IP CS") = .ok (.div ⟨['I', 'P'], .reg .IP⟩ ⟨['C', 'S'], .reg .CS⟩) := by rfl
theorem test_decode_and : decode (ln "AND DS ES") = .ok (.and ⟨['D', 'S'], .reg .DS⟩ ⟨['E', 'S'], .reg .ES⟩) := by rfl
theorem test_decode_or : decode (ln "OR SS ax") = .ok (.or ⟨['S', 'S'], .reg .SS⟩ ⟨['a', 'x'], .other⟩) := by rfl
theorem test_decode_xor : decode (ln "XOR V [AX]") = .ok (.xor ⟨['V'], .other⟩ ⟨['[', 'A', 'X', ']'], .indirect .AX⟩) := by rfl
theorem test_decode_not : decode (ln "NOT [IP+-7]") = .ok (.not ⟨['[', 'I', 'P', '+', '-', '7', ']'], .ipRel (-7)⟩) := by rfl
theorem test_decode_push : decode (ln "PUSH [0x10]") = .ok (.push ⟨['[', '0', 'x', '1', '0', ']'], .other⟩) := by rfl
theorem test_decode_pop : decode (ln "POP [IP+SI]") = .ok (.pop ⟨['[', 'I', 'P', '+', 'S', 'I', ']'], .indexed .IP .SI⟩) := by rfl
theorem test_decode_jmp : decode (ln "JMP 65535") = .ok (.jmp ⟨['6', '5', '5', '3', '5'], .imm 65535⟩) := by rfl
theorem test_decode_call : decode (ln "CALL P") = .ok (.call ⟨['P'], .other⟩) := by rfl
theorem test_decode_ret : decode (ln "RET") = .ok .ret := by rfl
theorem test_decode_hlt : decode (ln " HLT ") = .ok .hlt := by rfl
theorem test_decode_movsb : decode (ln "MOVSB") = .ok .movsb := by rfl
theorem test_decode_movsw : decode (ln "MOVSW") = .ok .movsw := by rfl
theorem test_decode_cmpsb : decode (ln "CMPSB") = .ok .cmpsb := by rfl
theorem test_decode_cmpsw : decode (ln "CMPSW") = .ok .cmpsw := by rfl
theorem test_decode_stc : decode (ln "STC") = .ok .stc := by rfl
theorem test_decode_clc : decode (ln "CLC") = .ok .clc := by rfl
theorem test_decode_dotCode : decode (ln ".CODE") = .ok .dotCode := by rfl
theorem test_decode_dotData : decode (ln ".DATA") = .ok .dotData := by rfl
theorem test_decode_dotStack : decode (ln ".STACK 100") = .ok .dotStack := by rfl
theorem test_decode_db : decode (ln "DB X -1") = .ok (.db ['X'] (-1)) := by rfl
theorem test_decode_dw : decode (ln "DW LIMIT 1000") = .ok (.dw ['L', 'I', 'M', 'I', 'T'] 1000) := by rfl
theorem test_decode_dd : decode (ln "DD BIG 70000") = .ok (.dd ['B', 'I', 'G'] 70000) := by rfl
theorem test_decode_proc : decode (ln "PROC P1") = .ok (.proc ['P', '1']) := by rfl
theorem test_decode_endp : decode (ln "ENDP DOUBLE") = .ok .endp := by rfl
theorem test_decode_voice : decode (ln "VOICE 12") = .ok (.voice (.code .v12)) := by rfl
theorem test_decode_voice_one : decode (ln "VOICE 1") = .ok (.voice (.unknown ['1'])) := by rfl
theorem test_decode_status : decode (ln "STATUS Fan2") = .ok (.status (.device .Fan2)) := by rfl
theorem test_decode_status_case : decode (ln "STATUS led1") = .ok (.status (.unknown ['l', 'e', 'd', '1'])) := by rfl
theorem test_decode_configTimer : decode (ln "CONFIG_TIMER -5 3") = .ok (.configTimer (-5) 3) := by rfl
theorem test_decode_startTimer : decode (ln "START_TIMER") = .ok .startTimer := by rfl
theorem test_decode_stopTimer : decode (ln "STOP_TIMER") = .ok .stopTimer := by rfl
theorem test_decode_tickTimer : decode (ln "TICK_TIMER") = .ok .tickTimer := by rfl
theorem test_decode_writeCtrl : decode (ln "WRITE_CTRL 0x80") = .ok (.writeCtrl 0x80) := by rfl
theorem test_decode_writePort : decode (ln "WRITE_PORT C fF") = .ok (.writePort (.port .C) 0xFF) := by rfl
theorem test_decode_readPort : decode (ln "READ_PORT D") = .ok (.readPort (.unknown ['D'])) := by rfl
theorem test_decode_label : decode (ln "L1: MOV AX 5") = .ok (.label ['L', '1']) := by rfl
theorem test_decode_label_empty : decode (ln ":") = .ok (.label []) := by rfl
theorem test_decode_empty : decode (ln "; only a comment") = .ok .empty ∧ decode (ln "   ") = .ok .empty := ⟨by rfl, by rfl⟩
theorem test_decode_unknown : decode (ln "DOUBLE ENDP") = .ok (.unknown ['D', 'O', 'U', 'B', 'L', 'E']) := by rfl

theorem test_reject_count : decode (ln "MOV AX,5") = .error (.tokenCount .mov) ∧ decode (ln "HLT 1") = .error (.tokenCount .hlt) ∧
    decode (ln "RET 2") = .error (.tokenCount .ret) ∧ decode (ln "NOT AX BX") = .error (.tokenCount .not) ∧
    decode (ln "WRITE_PORT A 0F 1") = .error (.tokenCount .writePort) ∧ decode (ln "DB X") = .error (.tokenCount .db) ∧
    decode (ln "MOV AX [ BX]") = .error (.tokenCount .mov) := ⟨by rfl, by rfl, by rfl, by rfl, by rfl, by rfl, by rfl⟩
theorem test_reject_literal : decode (ln "CONFIG_TIMER 1 70000") = .error .valueRange ∧
    decode (ln "CONFIG_TIMER X 3") = .error (.notDecimal .configTimer) ∧
    decode (ln "WRITE_CTRL 100") = .error (.notHexByte .writeCtrl) ∧ decode (ln "WRITE_CTRL G1") = .error (.notHexByte .writeCtrl) ∧
    decode (ln "DB X 0x10") = .error (.notDecimal .db) := ⟨by rfl, by rfl, by rfl, by rfl, by rfl⟩

/-- `HLT` in the table's numbering, and as the first instruction after reset. -/
theorem test_table_word : decodeTableWord 24 (72 + 76 * 256 + 84 * 65536) = some .hlt ∧
    (after (State.reset.withFetchWord 24 (72 + 76 * 256 + 84 * 65536))).status = .halted := ⟨by rfl, by rfl⟩

/-! ## Ill-formed terms: one for each check of WellFormed -/

theorem smoke_operand_token : (Instr.push ⟨['A', ' ', 'X'], .other⟩).wf = false ∧ (Instr.push ⟨[], .other⟩).wf = false ∧
    (Instr.push ⟨['A', ';'], .other⟩).wf = false := by decide
theorem smoke_operand_form : (Instr.mov ⟨['A', 'X'], .reg .BX⟩ ⟨['5'], .imm 5⟩).wf = false ∧
    (Instr.mov ⟨['A', 'X'], .reg .AX⟩ ⟨['5'], .imm 6⟩).wf = false ∧ (Instr.not ⟨['[', '1', ']'], .other⟩).wf = false := by decide
theorem smoke_voice : (Instr.voice (.unknown ['0', '1'])).wf = false ∧ (Instr.voice (.unknown [])).wf = false := by decide
theorem smoke_device : (Instr.status (.unknown ['F', 'a', 'n', '3'])).wf = false ∧ (Instr.status (.unknown [' '])).wf = false := by
  decide
theorem smoke_port : (Instr.readPort (.unknown ['A'])).wf = false ∧ (Instr.writePort (.unknown []) 0).wf = false := by decide
theorem smoke_names : (Instr.db [' '] 0).wf = false ∧ (Instr.dw [] 0).wf = false ∧ (Instr.dd [';'] 0).wf = false ∧
    (Instr.proc ['P', '\t']).wf = false ∧ (Instr.label ['L', ' ']).wf = false := by decide
theorem smoke_unknown : (Instr.unknown ['M', 'O', 'V']).wf = false ∧ (Instr.unknown ['L', ':']).wf = false ∧
    (Instr.unknown []).wf = false := by decide
theorem smoke_wellFormed : (Instr.mov (op "AX") (op "5")).wf = true ∧ (Instr.label []).wf = true ∧
    (Instr.voice (.unknown ['1', '3'])).wf = true ∧ (Instr.unknown ['N', 'O', 'P']).wf = true := by decide

/-! ## The ALU (95_test_vectors.md 2.1, 2.2) -/

theorem test_mov_negative : (run1 base "MOV AX -1").getReg .AX = 0xFFFF ∧ (run1 base "MOV AX 70000").getReg .AX = 4464 := by decide
theorem test_mov_literal_dst : step (at_ base 0 "MOV 5 AX") =
    .next { at_ base 0 "MOV 5 AX" with status := .error (.addressing (.token ['5'])) } := by rfl
theorem test_add_carry : (run1 (base.setReg .AX 0xFFFF) "ADD AX 1").flags = { Flags.reset with CF := true, ZF := true } := by decide
theorem test_add_overflow : (run1 (base.setReg .AX 0x8000) "ADD AX AX").flags =
    { Flags.reset with CF := true, OF := true, ZF := true } := by decide
theorem test_sub_borrow : (run1 (base.setReg .AX 0x7FFF) "SUB AX -1").flags =
    { Flags.reset with CF := true, OF := true, SF := true } ∧ (run1 (base.setReg .AX 0x7FFF) "SUB AX -1").getReg .AX = 0x8000 := by
  decide
theorem test_sub_overflow : (run1 (base.setReg .AX 0x8000) "SUB AX 1").flags = { Flags.reset with OF := true } := by decide
theorem test_mul_low : (run1 (base.setReg .AX 300) "MUL AX AX").getReg .AX = 24464 := by decide
theorem test_mul_keeps : (run1 (base.setFlags { Flags.reset with CF := true, OF := true }) "MUL AX 2").flags =
    { Flags.reset with CF := true, OF := true, ZF := true } := by decide
theorem test_div_zero : (run1 (base.setReg .AX 100) "DIV AX 0").flags = { Flags.reset with ZF := true } ∧
    (run1 (base.setReg .AX 100) "DIV AX 0").getReg .AX = 0 := by decide
theorem test_div_unsigned : (run1 (base.setReg .AX 0xFFFF) "DIV AX 2").getReg .AX = 0x7FFF := by decide
theorem test_and : (run1 (base.setReg .AX 0xF0F0) "AND AX 4080").getReg .AX = 0x00F0 := by decide
theorem test_or : (run1 (base.setReg .AX 0xF0F0) "OR AX 4080").getReg .AX = 0xFFF0 := by decide
theorem test_xor : (run1 (base.setReg .AX 0xF0F0) "XOR AX 4080").getReg .AX = 0xFF00 := by decide
theorem test_not : (run1 (base.setReg .AX 0x00FF) "NOT AX").getReg .AX = 0xFF00 ∧
    (run1 (base.setReg .AX 0x00FF) "NOT AX").flags = { Flags.reset with SF := true } := by decide

/-! ## Operands and memory (95_test_vectors.md 2.4, 2.5) -/

theorem test_read_modes : readOp (op "65536") opBase = .ok 0 ∧ readOp (op "V") opBase = .ok 9 ∧
    readOp (op "[16]") opBase = .ok 0xABCD ∧ readOp (op "[AX]") opBase = .ok 0xABCD ∧ readOp (op "IP") opBase = .ok 7 ∧
    readOp (op "[254]") opBase = .ok 0 := by decide
theorem test_read_errors : readOp (op "W") opBase = .error (.addressing (.token ['W'])) ∧
    readOp (op "[BX+SI]") opBase = .error (.addressing (.token (ln "[BX+SI]"))) ∧
    readOp (op "[255]") opBase = .error (.addressing (.address 255)) ∧
    readOp (op "[-1]") opBase = .error (.addressing (.address (-1))) := by decide
theorem test_write_modes : writeOp (op "[BX+SI]") 0x1234 opBase =
      .ok { opBase with mem := [(5, 0x12), (6, 0x34), (0x10, 0xAB), (0x11, 0xCD)] } ∧
    writeOp (op "[IP+-7]") 1 opBase = .ok { opBase with mem := [(1, 1), (0x10, 0xAB), (0x11, 0xCD)] } ∧
    writeOp (op "[IP+SI]") 1 opBase = .ok { opBase with mem := [(11, 1), (0x10, 0xAB), (0x11, 0xCD)] } ∧
    writeOp (op "V") (u16 70000) opBase = .ok { opBase with dst := [(['V'], 4464)] } := by decide
theorem test_write_errors : writeOp (op "[IP+249]") 1 opBase = .error (.addressing (.address 256)) ∧
    writeOp (op "W") 1 opBase = .error (.addressing (.token ['W'])) ∧
    writeOp (op "7") 1 opBase = .error (.addressing (.token ['7'])) := by decide
theorem test_target : target (op "L") { base with labels := [(['L'], 4)], procs := [(['L'], 9)] } = .ok 4 ∧
    target (op "P") { base with procs := [(['P'], 9)] } = .ok 9 ∧ target (op "-1") base = .ok 0xFFFF ∧
    target (op "Q") base = .error (.addressing (.token ['Q'])) := by decide
theorem test_literal_before_label : readOp (op "5") { base with dst := [(['5'], 1), (['A', 'X'], 2)] } = .ok 5 ∧
    readOp (op "AX") { base with dst := [(['5'], 1), (['A', 'X'], 2)] } = .ok 0 := by decide
theorem test_memory_big_endian : (run1 base "MOV [254] 43981").mem = [(254, 0xAB), (255, 0xCD)] ∧
    (run1 base "MOV [13] 1").mem = [(14, 1)] := by decide

/-! ## Stack and control (95_test_vectors.md 2.6) -/

theorem test_push : (run1 base "PUSH 70000").cstack = [4464] ∧ (run1 base "PUSH 70000").getReg .SP = 0 := by decide
theorem test_pop : (run1 { base with cstack := [7, 8] } "POP BX").getReg .BX = 8 ∧
    (run1 { base with cstack := [7, 8] } "POP BX").cstack = [7] := by decide
theorem test_pop_literal : (run1 base "POP 5").diags = [.stackUnderflow .POP] ∧
    (run1 { base with cstack := [9] } "POP 5").cstack = [9] ∧
    (run1 { base with cstack := [9] } "POP 5").status = .error (.addressing (.token ['5'])) := by decide
theorem test_jmp : (run1 base "JMP 65535").getReg .IP = 0xFFFF ∧ (run1 base "JMP 0").getReg .IP = 0 := by decide
theorem test_jmp_forward : (run1 base "JMP FWD").status = .error (.addressing (.token ['F', 'W', 'D'])) := by decide
theorem test_call : (after (at_ base 4 "CALL 0")).cstack = [5] ∧ (after (at_ base 4 "CALL 0")).getReg .IP = 0 := by decide
theorem test_ret : (run1 { base with cstack := [5] } "RET").getReg .IP = 6 ∧ (run1 base "RET").diags = [.stackUnderflow .RET] := by
  decide
theorem test_hlt : (run1 base "HLT").status = .halted ∧ (run1 base "HLT").getReg .IP = 1 := by decide
theorem test_launch : (after (State.launch [ln "MOV AX 5"])).getReg .AX = 5 ∧
    (after (State.launch [])).status = .overrun := by decide
theorem test_overrun : (after base).status = .overrun ∧ (after base).getReg .IP = 0 := by decide

/-! ## Strings and flags (95_test_vectors.md 2.7) -/

theorem test_movsb : (run1 (strBase 255 0 [(255, 7)]) "MOVSB").mem = [(0, 7), (255, 7)] ∧
    (run1 (strBase 255 0 [(255, 7)]) "MOVSB").getReg .SI = 256 := by decide
theorem test_movsb_range : (run1 (strBase 256 0 []) "MOVSB").status = .error (.addressing (.address 256)) := by decide
theorem test_movsw_overlap : (run1 (strBase 10 11 [(10, 0xAA), (11, 0xBB)]) "MOVSW").mem = [(10, 0xAA), (11, 0xAA), (12, 0xBB)] := by
  decide
theorem test_cmpsb : (run1 (strBase 1 2 [(2, 0x12)]) "CMPSB").flags = { Flags.reset with CF := true, SF := true } := by decide
theorem test_cmpsw : (run1 (strBase 1 3 [(1, 0x80), (4, 1)]) "CMPSW").flags = { Flags.reset with OF := true } ∧
    (run1 (strBase 1 3 [(1, 0x80), (4, 1)]) "CMPSW").getReg .DI = 5 := by decide
theorem test_cmpsw_borrow : (run1 (strBase 1 3 [(3, 0x80)]) "CMPSW").flags =
    { Flags.reset with CF := true, OF := true, SF := true } := by decide
theorem test_stc_clc : (run1 base "STC").flags = { Flags.reset with CF := true } ∧
    (run1 (base.setFlags { Flags.reset with CF := true }) "CLC").flags = Flags.reset := by decide

/-! ## Pseudo-operations and labels (95_test_vectors.md 2.8) -/

theorem test_segment : (run1 base ".CODE").segment = .code ∧ (run1 base ".DATA").segment = .data ∧
    (run1 base ".STACK 100").segment = .stack := by decide
theorem test_db : (run1 { base with dst := [(['X'], 10)] } "DB X 300").dst = [(['X'], 300)] ∧
    (run1 base "DB X -1").dst = [(['X'], 65535)] := by decide
theorem test_dw : (run1 { base with dst := [(['X'], 10)] } "DW L 1000").dst = [(['L'], 1000), (['X'], 10)] := by decide
theorem test_dd : (run1 base "DD BIG 70000").dst = [(['B', 'I', 'G'], 4464)] := by decide
theorem test_proc : (after (at_ base 2 "PROC D")).procs = [(['D'], 2)] := by decide
theorem test_label : (after (at_ base 2 "START:")).labels = [(['S', 'T', 'A', 'R', 'T'], 2)] := by decide
theorem test_endp : step (at_ base 0 "ENDP") = .next ((at_ base 0 "ENDP").setReg .IP 1) := by rfl
theorem test_unknown : (after (at_ base 3 "NOP")).diags = [.unknownOpcode ['N', 'O', 'P']] ∧
    (after (at_ base 3 "NOP")).getReg .IP = 4 := by decide

/-! ## Peripherals and devices (95_test_vectors.md 2.9 to 2.12) -/

theorem test_voice : (match voiceWith (fun _ => (.LED1, true)) (.code .v01) base with | t => t.devices.LED1) = true ∧
    (run1 base "VOICE 13").diags = [.unknownCommand ['1', '3']] := by decide
theorem test_status : (run1 base "STATUS Fan2").diags = [.statusReport .Fan2 false] ∧
    (run1 base "STATUS led1").diags = [.unknownDevice ['l', 'e', 'd', '1']] := by decide
theorem test_configTimer : (run1 base "CONFIG_TIMER 1 3").timers =
    [{ ctrl := 0, counter := 3, initial := 3, mode := 1, running := false }] := by decide
theorem test_startTimer : (run1 { base with timers := [TimerChannel.configure 1 3 .reset] } "START_TIMER").timers =
    [{ ctrl := 0, counter := 3, initial := 3, mode := 1, running := true }] ∧
    (run1 base "START_TIMER").timers = [.reset] := by decide
theorem test_stopTimer : (run1 { base with timers := [{ TimerChannel.reset with counter := 2, running := true }] } "STOP_TIMER").timers =
    [{ TimerChannel.reset with counter := 2 }] := by decide
theorem test_tickTimer : (run1 { base with timers := [{ TimerChannel.reset with counter := 1, running := true }] } "TICK_TIMER").timers =
    [.reset] := by decide
theorem test_tick_coupling :
    (tickCoupling ⟨[⟨.two, .LED3, .invert⟩], .after, .runningOnly⟩ 3 2 true .reset).LED3 = true ∧
    tickCoupling ⟨[⟨.two, .LED3, .invert⟩], .before, .runningOnly⟩ 3 2 true .reset = .reset := by decide
theorem test_writeCtrl : (run1 base "WRITE_CTRL 80").ppi =
    { Ppi.reset with ctrl := 0x80, data := 0x80, a1 := true, a0 := true, wr := false, cs := false } := by decide
theorem test_writePort : (run1 base "WRITE_PORT C FF").ppi =
    { Ppi.reset with portC := 0xFF, data := 0xFF, a1 := true, wr := false, cs := false } ∧
    (run1 base "WRITE_PORT a 01").diags = [.invalidPort ['a']] := by decide
theorem test_readPort : (run1 { base with ppi := { Ppi.reset with portB := 0x5A } } "READ_PORT B").ppi =
    { Ppi.reset with portB := 0x5A, data := 0x5A, a0 := true, rd := false, cs := false } := by decide
theorem test_timer_channel : timerTick 1 base = { base with diags := [.invalidChannel 1] } ∧
    timerConfigure (-1) 0 3 base = { base with diags := [.invalidChannel (-1)] } := by decide
theorem test_ppi_gated : ppiWrite 0x55 base = { base with diags := [.gatedOff .write] } ∧
    (ppiWrite 1 (ppiSetLines false false false base)).ppi.portA = 1 := by decide
theorem test_configure_ports :
    let field : Port → Fin 7 := fun p => match p with | .A => 0 | .B => 2 | .C => 4
    (ppiConfigurePorts field { base with ppi := { Ppi.reset with ctrl := 0x11 } }).2 = (.output, .input, .output) ∧
    (ppiConfigurePorts field { base with ppi := { Ppi.reset with ctrl := 0x03 } }).1.diags = [.invalidMode .A 3] := by decide
theorem test_pic_check : (((Pic.reset.request 3).1.request 5).1.check = some 3) ∧
    ((((Pic.reset.request 3).1.request 5).1.mask 3).1.check = some 5) ∧ Pic.reset.check = none := by decide
theorem test_pic_service : ((Pic.reset.acknowledge 6).1.ISR = 0x40 ∧ (Pic.reset.acknowledge 6).1.nested = 1) ∧
    (Pic.reset.endOfInterrupt 4).1.nested = -1 ∧ Pic.reset.request 8 = (Pic.reset, [.invalidIRQ 8]) := by decide
theorem test_pic_rotate : Pic.reset.rotate.prio = [1, 2, 3, 4, 5, 6, 7, 0] ∧ (Pic.rotate^[8] Pic.reset).prio = Pic.reset.prio := by
  decide
theorem test_cascade :
    let q : PicPair := { master := Pic.reset, cascadePending := false, slave := Pic.reset }
    (q.masterRequest 2).1 = { q with cascadePending := true } ∧
    ((q.masterRequest 2).1.masterAcknowledge 5).1 = { q with slave := (q.slave.acknowledge 5).1 } := by decide

/-! ## Witnesses: for every obligation with hypotheses, a state and operands that meet them -/

/-- A state with a label table entry, a stack and CF and OF set, for the witnesses. -/
def rich : State := { opBase with cstack := [3, 9], flags := { Flags.reset with CF := true, OF := true } }

theorem witness_ResetLeavesSpecValues : Pic.reset =
    { IRR := 0, ISR := 0, IMR := 0, prio := [0, 1, 2, 3, 4, 5, 6, 7], nested := 0, ackLine := false } := by rfl

/-- A line that ends Safe, and one that ends in a fatal error. -/
theorem witness_StepRunsDecodedLine :
    ((at_ base 3 "STC").status = .running ∧ (at_ base 3 "STC").program[((at_ base 3 "STC").getReg .IP).toNat]? = some (ln "STC")) ∧
    decode (ln "STC") = .ok .stc ∧ (result .stc base).failed = false ∧
    decode (ln "PUSH W") = .ok (.push ⟨['W'], .other⟩) ∧ (result (.push ⟨['W'], .other⟩) base).failed = true ∧
    exec .stc base = .next (result .stc base) := ⟨by decide, by decide, by decide, by decide, by decide, rfl⟩

/-- IP equal to `L`, a malformed line, and a stop state. -/
theorem witness_StepWithoutInstruction :
    (base.status = .running ∧ base.program.length ≤ (base.getReg .IP).toNat) ∧
    ((at_ base 0 "HLT 1").program[((at_ base 0 "HLT 1").getReg .IP).toNat]? = some (ln "HLT 1") ∧
      decode (ln "HLT 1") = .error (.tokenCount .hlt)) ∧
    { base with status := .halted }.status ≠ .running := ⟨by decide, ⟨by decide, by rfl⟩, by decide⟩

/-- The launch of a one-line program, with a value already on the Call Stack. -/
def loaded : State := { State.launch [ln "POP AX"] with cstack := [8] }

theorem loaded_inv : loaded.Inv where
  memory := by decide
  dst := by decide
  labels := by decide
  procs := by decide
  pf := rfl
  df := rfl
  ifl := rfl
  channel := by simp [loaded, State.reset, Config.timerChannels]
  counting := by simp [loaded, State.reset, TimerChannel.reset]
  priority := by
    show (PicSystem.reset Config.picCascade).Ordered
    cases Config.picCascade
    · exact List.Perm.refl _
    · exact ⟨List.Perm.refl _, List.Perm.refl _⟩
  cascade := by
    show (PicSystem.reset Config.picCascade).cascade = _
    cases Config.picCascade <;> rfl
  length := by decide

theorem witness_StepKeepsInvariant : loaded.Inv ∧ ∃ t, step loaded = .next t := ⟨loaded_inv, step_next _⟩

theorem witness_ResetMeetsInvariant : [ln "HLT"].length ≤ 65536 ∧ (List.replicate 65536 (ln "HLT")).length ≤ 65536 :=
  ⟨by decide, by rw [List.length_replicate]⟩

theorem witness_HostOperationKeepsInvariant : loaded.Inv ∧ (∃ t a, hostOp (.timerTick 0) loaded = some (t, a)) ∧
    ∃ t a, hostOp (.pic .master .rotatePriority) loaded = some (t, a) := by
  refine ⟨loaded_inv, ⟨_, _, rfl⟩, ?_⟩
  simp only [hostOp]
  cases loaded.pic <;> exact ⟨_, _, rfl⟩

theorem witness_ProgramNeverWritten : (∃ t, exec .movsb base = .next t) ∧ ∃ t, step (at_ base 0 "MOVSB") = .next t :=
  ⟨exec_next _ _, step_next _⟩

theorem witness_ParityNeverComputed : (∃ t, exec (.add (op "AX") (op "3")) base = .next t) ∧
    (at_ base 0 "ADD AX 3").flags.PF = false ∧ ∃ t, step (at_ base 0 "ADD AX 3") = .next t := ⟨exec_next _ _, rfl, step_next _⟩

theorem witness_NoInterruptReachesCpu : ∃ t, step (at_ base 0 "ADD AX 3") = .next t := step_next _

theorem witness_DiagnosticsOutputOnly : ∃ t, step (at_ base 0 "NOP") = .next t := step_next _

theorem witness_LinesAreClassified : tokenize (ln " ;x") = [] ∧
    (tokenize (ln "MOV: 1") = ln "MOV:" :: [['1']] ∧ (ln "MOV:").getLast? = some ':') ∧
    tokenize (ln "HLT 1") = Mnemonic.text .hlt :: [['1']] ∧
    (tokenize (ln "hlt") = [ln "hlt"] ∧ (ln "hlt").getLast? ≠ some ':' ∧ mnemonic? (ln "hlt") = none) := by decide

theorem witness_MalformedLinesRejected :
    (Mnemonic.ret ∈ [Mnemonic.ret, .hlt, .movsb, .movsw, .cmpsb, .cmpsw, .stc, .clc, .startTimer, .stopTimer, .tickTimer] ∧
      [['2']] ≠ []) ∧
    (([] : List Token).length ≠ 1 ∧ [['A'], ['B']].length ≠ 1) ∧ ([['A']].length ≠ 2 ∧ [['A'], ['B'], ['C']].length ≠ 2) ∧
    decimal? (ln "0x10") = none ∧ hexByte? (ln "100") = none ∧ hexByte? (ln "G1") = none ∧
    (decimal? ['1'] = some 1 ∧ decimal? (ln "65536") = some 65536 ∧ decimal? (ln "-1") = some (-1)) ∧
    decode (ln "CONFIG_TIMER 1 65535") = .ok (.configTimer 1 0xFFFF) ∧
    decode (ln "CONFIG_TIMER 1 65536") = .error .valueRange ∧ decode (ln "CONFIG_TIMER 1 -1") = .error .valueRange := by decide

theorem witness_DecodeEncodeRoundTrip : (Instr.mov (op "[IP+-2]") (op "-7")).wf = true ∧ (Instr.label []).wf = true ∧
    decode (encode (.configTimer (-5) 65535)) = .ok (.configTimer (-5) 65535) ∧
    decode (encode (.db ['X'] 0)) = .ok (.db ['X'] 0) ∧
    decode (encode (.writePort (.port .C) 0xFF)) = .ok (.writePort (.port .C) 0xFF) := by decide

theorem witness_ReadOperandModes : (op "-1").form = .imm (-1) ∧ (op "SS").form = .reg .SS ∧
    ((op "V").form = .other ∧ opBase.dst.find? (op "V").tok = some 9) ∧
    (opBase.dst.find? (op "[254]").tok = none ∧ (op "[254]").form = .direct 254) ∧
    (opBase.dst.find? (op "[AX]").tok = none ∧ (op "[AX]").form = .indirect .AX) := by decide

theorem witness_UnreadableTokensRaise : (opBase.dst.find? ['W'] = none ∧ formOf ['W'] = .other) ∧
    (opBase.dst.find? (ln "[IP+2]") = none ∧ formOf (ln "[IP+2]") = .ipRel 2) ∧
    (opBase.dst.find? (ln "[BX+SI]") = none ∧ formOf (ln "[BX+SI]") = .indexed .BX .SI) ∧
    (opBase.dst.find? ['A', 'L'] = none ∧ opBase.dst.find? ['F', 'O', 'O'] = none) := by decide

theorem witness_LabelsReadAfterLiteralsAndRegisters :
    (opBase.dst.find? ['V'] = some 9 ∧ decimal? ['V'] = none ∧ ∀ r ∈ Reg.all, r.text ≠ ['V']) ∧
    decimal? ['5'] = some 5 ∧ Reg.text .AX = ['A', 'X'] := by decide

theorem witness_WriteOperandModes : (op "7").form = .imm 7 ∧ (op "IP").form = .reg .IP ∧
    ((op "V").form = .other ∧ opBase.dst.find? (op "V").tok = some 9) ∧
    (opBase.dst.find? (op "[0]").tok = none ∧ (op "[0]").form = .direct 0) ∧
    (opBase.dst.find? (op "[BX]").tok = none ∧ (op "[BX]").form = .indirect .BX) ∧
    (opBase.dst.find? (op "[IP+SI]").tok = none ∧ (op "[IP+SI]").form = .indexed .IP .SI) ∧
    (opBase.dst.find? (op "[IP+249]").tok = none ∧ (op "[IP+249]").form = .ipRel 249) ∧
    (opBase.dst.find? (op "W").tok = none ∧ (op "W").form = .other) := by decide

theorem witness_TargetLookupOrder :
    Table.find? [(['L'], 4)] (op "L").tok = some 4 ∧
    (Table.find? [(['L'], 4)] (op "P").tok = none ∧ Table.find? [(['P'], 9)] (op "P").tok = some 9) ∧
    (base.labels.find? (op "12").tok = none ∧ base.procs.find? (op "12").tok = none ∧ (op "12").form = .imm 12) ∧
    (base.labels.find? (op "Q").tok = none ∧ base.procs.find? (op "Q").tok = none ∧ (op "Q").form = .other) := by decide

/-- The ends of each range of addresses: -1, 0, 254, 255 and 256. -/
theorem witness_MemoryPrimitives : (¬(0 ≤ (-1 : Int) ∧ (-1 : Int) ≤ 255) ∧ ¬(0 ≤ (256 : Int) ∧ (256 : Int) ≤ 255)) ∧
    (¬(0 ≤ (255 : Int) ∧ (255 : Int) + 1 ≤ 255) ∧ base.memRead2 255 = .error (.addressing (.address 255))) ∧
    ((0 ≤ (255 : Int) ∧ (255 : Int) ≤ 255) ∧ base.memRead1 255 = .ok 0) ∧
    ((0 ≤ (254 : Int) ∧ (254 : Int) + 1 ≤ 255) ∧ base.memRead2 254 = .ok 0) ∧
    opBase.memRead2 16 = .ok 0xABCD := by decide

theorem witness_WordReadsBack : base.memWrite2 254 0xABCD = .ok { base with mem := [(254, 0xAB), (255, 0xCD)] } ∧
    ((252 : Int) + 1 < 254 ∧ (254 : Int) + 1 < 256) := by decide

theorem witness_MovResult : readOp (op "-1") base = .ok 0xFFFF ∧
    writeOp (op "SP") 0xFFFF base = .ok (base.setReg .SP 0xFFFF) := by decide

theorem witness_AddResult : readOp (op "AX") (base.setReg .AX 0xFFFF) = .ok 0xFFFF ∧
    readOp (op "1") (base.setReg .AX 0xFFFF) = .ok 1 ∧
    writeOp (op "AX") (0xFFFF + 1) (base.setReg .AX 0xFFFF) = .ok (base.setReg .AX 0) := by decide

theorem witness_SubResult : readOp (op "AX") base = .ok 0 ∧ readOp (op "1") base = .ok 1 ∧
    writeOp (op "AX") (0 - 1) base = .ok (base.setReg .AX 0xFFFF) := by decide

theorem witness_MulDivResult : readOp (op "AX") (base.setReg .AX 9) = .ok 9 ∧ readOp (op "0") (base.setReg .AX 9) = .ok 0 ∧
    writeOp (op "AX") 0 (base.setReg .AX 9) = .ok (base.setReg .AX 0) ∧
    ((0 : Word).toNat = (9 : Word).toNat * (0 : Word).toNat % 65536) ∧
    ((0 : Word).toNat = if (0 : Word) = 0 then 0 else (9 : Word).toNat / (0 : Word).toNat) ∧
    ((4 : Word).toNat = if (2 : Word) = 0 then 0 else (9 : Word).toNat / (2 : Word).toNat) := by decide

theorem witness_LogicResult : readOp (op "V") opBase = .ok 9 ∧ readOp (op "3") opBase = .ok 3 ∧
    writeOp (op "V") (9 &&& 3) opBase = .ok { opBase with dst := [(['V'], 1)] } ∧
    writeOp (op "V") (9 ||| 3) opBase = .ok { opBase with dst := [(['V'], 11)] } ∧
    writeOp (op "V") (9 ^^^ 3) opBase = .ok { opBase with dst := [(['V'], 10)] } ∧
    writeOp (op "V") (~~~9) opBase = .ok { opBase with dst := [(['V'], 0xFFF6)] } := by decide

theorem witness_DivisionByZeroIsDefined : readOp (op "AX") (base.setReg .AX 100) = .ok 100 ∧
    readOp (op "0") (base.setReg .AX 100) = .ok 0 ∧
    writeOp (op "AX") 0 (base.setReg .AX 100) = .ok (base.setReg .AX 0) ∧ (base.setReg .AX 100).failed = false := by decide

theorem witness_OperandErrorsEndTheRun :
    readOp (op "[255]") base = .error (.addressing (.address 255)) ∧
    (readOp (op "AX") base = .ok 0 ∧ readOp (op "W") base = .error (.addressing (.token ['W']))) ∧
    (readOp (op "5") base = .ok 5 ∧ ∀ v, writeOp (op "5") v base = .error (.addressing (.token ['5']))) ∧
    (readOp (op "AX") base = .ok 0 ∧ writeOp (op "[255]") 0 base = .error (.addressing (.address 255))) ∧
    ({ base with cstack := [9] }.cstack = [] ++ [9] ∧
      writeOp (op "5") 9 { base with cstack := [] } = .error (.addressing (.token ['5']))) ∧
    target (op "FWD") base = .error (.addressing (.token ['F', 'W', 'D'])) :=
  ⟨by decide, by decide, ⟨by decide, fun _ => rfl⟩, by decide, by decide, by decide⟩

theorem witness_AluFrame : (∃ t, exec (.mov (op "[BX+SI]") (op "V")) rich = .next t) ∧
    (∃ t, exec (.add (op "AX") (op "[16]")) rich = .next t) ∧ (∃ t, exec (.sub (op "V") (op "1")) rich = .next t) ∧
    (∃ t, exec (.not (op "5")) rich = .next t) ∧
    ((result (.mov (op "[BX+SI]") (op "V")) rich).failed = false ∧ (result (.add (op "AX") (op "[16]")) rich).failed = false ∧
      (result (.sub (op "V") (op "1")) rich).failed = false ∧ (result (.not (op "5")) rich).failed = true) ∧
    (dest? (op "[254]") rich = some (.memory 254) ∧ dest? (op "V") rich = some (.label ['V']) ∧
      dest? (op "AX") rich = some (.reg .AX)) :=
  ⟨exec_next _ _, exec_next _ _, exec_next _ _, exec_next _ _, by decide, by decide⟩

theorem witness_PushPopResult : readOp (op "70000") base = .ok 4464 ∧ rich.cstack = [3] ++ [9] ∧
    writeOp (op "BX") 9 { rich with cstack := [3] } = .ok ({ rich with cstack := [3] }.setReg .BX 9) := by decide

theorem witness_JumpCallReturnResult : target (op "0") (at_ base 0 "JMP 0") = .ok 0 ∧ rich.cstack = [3] ++ [9] ∧
    ((at_ base 0 "JMP 0").status = .running ∧
      (at_ base 0 "JMP 0").program[((at_ base 0 "JMP 0").getReg .IP).toNat]? = some (ln "JMP 0") ∧
      decode (ln "JMP 0") = .ok (.jmp (op "0"))) := by decide

theorem witness_RecoverableErrorsOnlyDiagnose : base.cstack = [] := by rfl

/-- `CALL 0` at line 1 whose target, line 0, is RET. -/
theorem witness_ReturnSkipsTheLineAfterCall :
    let s := { base.setReg .IP 1 with program := [ln "RET", ln "CALL 0"] }
    s.status = .running ∧ s.program[(s.getReg .IP).toNat]? = some (ln "CALL 0") ∧
    decode (ln "CALL 0") = .ok (.call (op "0")) ∧ target (op "0") s = .ok 0 ∧
    s.program[(0 : Word).toNat]? = some (ln "RET") ∧ decode (ln "RET") = .ok .ret := by decide

theorem witness_HltResult : (at_ base 2 "HLT").status = .running ∧
    (at_ base 2 "HLT").program[((at_ base 2 "HLT").getReg .IP).toNat]? = some (ln "HLT") ∧ decode (ln "HLT") = .ok .hlt := by decide

theorem witness_ControlFrame : (∃ t, exec (.push (op "AX")) rich = .next t) ∧ (∃ t, exec (.pop (op "[254]")) rich = .next t) ∧
    (∃ t, exec (.jmp (op "7")) rich = .next t) ∧ (∃ t, exec (.call (op "7")) rich = .next t) ∧ (∃ t, exec .ret rich = .next t) ∧
    (∃ t, exec .hlt rich = .next t) ∧ dest? (op "[254]") rich = some (.memory 254) :=
  ⟨exec_next _ _, exec_next _ _, exec_next _ _, exec_next _ _, exec_next _ _, exec_next _ _, by decide⟩

/-- The last legal addresses of a byte and of a word. -/
theorem witness_StringMoves : (((strBase 255 255 []).getReg .SI).toNat ≤ 255 ∧ ((strBase 255 255 []).getReg .DI).toNat ≤ 255) ∧
    (((strBase 254 254 []).getReg .SI).toNat ≤ 254 ∧ ((strBase 254 254 []).getReg .DI).toNat ≤ 254) := by decide

theorem witness_StringCompares :
    (((strBase 255 0 [(255, 0x77)]).getReg .SI).toNat ≤ 255 ∧ ((strBase 255 0 [(255, 0x77)]).getReg .DI).toNat ≤ 255 ∧
      (0x77 : Word) = ((strBase 255 0 [(255, 0x77)]).readByte 255).setWidth 16 ∧
      (0 : Word) = ((strBase 255 0 [(255, 0x77)]).readByte 0).setWidth 16) ∧
    ((strBase 254 0 [(254, 0x80)]).memRead2 ((strBase 254 0 [(254, 0x80)]).getReg .SI).toNat = .ok 0x8000 ∧
      (strBase 254 0 [(254, 0x80)]).memRead2 ((strBase 254 0 [(254, 0x80)]).getReg .DI).toNat = .ok 0) := by decide

theorem witness_CarrySetAndClear : tokenize (ln "STC") = ['S', 'T', 'C'] :: [] ∧
    tokenize (ln "CLC 1") = ['C', 'L', 'C'] :: [['1']] := by decide

/-- The first address out of range in each place. -/
theorem witness_StringRangeErrors : 255 < ((strBase 256 0 []).getReg .SI).toNat ∧
    (((strBase 255 256 []).getReg .SI).toNat ≤ 255 ∧ 255 < ((strBase 255 256 []).getReg .DI).toNat) ∧
    254 < ((strBase 255 0 []).getReg .SI).toNat ∧
    (((strBase 254 255 []).getReg .SI).toNat ≤ 254 ∧ 254 < ((strBase 254 255 []).getReg .DI).toNat) := by decide

theorem witness_StringFrame : (∃ t, exec .movsb (strBase 0 255 [(0, 5)]) = .next t) ∧
    (∃ t, exec .movsw (strBase 0 254 [(0, 5)]) = .next t) ∧ (∃ t, exec .cmpsb (strBase 0 1 [(0, 5)]) = .next t) ∧
    (∃ t, exec .cmpsw (strBase 0 1 [(0, 5)]) = .next t) ∧ (∃ t, exec .stc base = .next t) ∧ (∃ t, exec .clc base = .next t) :=
  ⟨exec_next _ _, exec_next _ _, exec_next _ _, exec_next _ _, exec_next _ _, exec_next _ _⟩

theorem witness_SegmentMarkerInformational : Instr.hlt ≠ .dotCode ∧ Instr.hlt ≠ .dotData ∧ Instr.hlt ≠ .dotStack ∧
    (∃ t, exec .hlt base = .next t) ∧ ∃ t, step (at_ base 0 ".CODE") = .next t :=
  ⟨by decide, by decide, by decide, exec_next _ _, step_next _⟩

theorem witness_DataDefinition : Instr.dd ['X'] 70000 ∈ [Instr.db ['X'] 70000, .dw ['X'] 70000, .dd ['X'] 70000] := by decide

theorem witness_ProcedureDefinition : tokenize (ln "PROC P") = ln "PROC" :: [['P']] ∧ tokenize (ln "PROC") = ln "PROC" :: [] ∧
    ([] : List Token).length ≠ 1 ∧ (op "P").tok = ['P'] ∧
    ((at_ base 2 "PROC P").status = .running ∧
      (at_ base 2 "PROC P").program[((at_ base 2 "PROC P").getReg .IP).toNat]? = some (ln "PROC P") ∧
      decode (ln "PROC P") = .ok (.proc ['P'])) := by decide

theorem witness_UnknownOpcodeFallsThrough : (at_ base 3 "NOP 1").status = .running ∧
    (at_ base 3 "NOP 1").program[((at_ base 3 "NOP 1").getReg .IP).toNat]? = some (ln "NOP 1") ∧
    tokenize (ln "NOP 1") = ln "NOP" :: [['1']] ∧ (ln "NOP").getLast? ≠ some ':' ∧ mnemonic? (ln "NOP") = none := by decide

theorem witness_DirectiveFrame : (∃ t, exec .dotStack base = .next t) ∧ (∃ t, exec (.dw ['X'] 1) base = .next t) ∧
    (∃ t, exec (.proc ['X']) base = .next t) ∧ (∃ t, exec (.label ['X']) base = .next t) ∧ (∃ t, exec .empty base = .next t) ∧
    (∃ t, exec (.unknown ['X']) base = .next t) := ⟨exec_next _ _, exec_next _ _, exec_next _ _, exec_next _ _, exec_next _ _, exec_next _ _⟩

theorem witness_TimerInstructionsResult : base.timers = TimerChannel.reset :: [] ∧ TimerChannel.reset.counter = 0 ∧
    TimerChannel.reset.running = false ∧ (TimerChannel.configure 1 65535 .reset).counter ≠ 0 ∧
    (TimerChannel.configure 1 1 .reset).start.running = true := by decide

theorem witness_TickCouplingRules :
    ((⟨[], .after, .runningOnly⟩ : Config.TickRules).gate = .runningOnly ∧ Device.LED1 ≠ .LED3 ∧ Device.LED1 ≠ .Fan3) ∧
    ((4 : Word) ≠ 2 ∧ (4 : Word) ≠ 3 ∧ (4 : Word) ≠ 5) ∧
    ((⟨[⟨.five, .Fan3, .off⟩], .before, .always⟩ : Config.TickRules).rules = ⟨.five, .Fan3, .off⟩ :: [] ∧
      (⟨[⟨.five, .Fan3, .off⟩], .before, .always⟩ : Config.TickRules).gate = .always) := by decide

theorem witness_PortReadResult : ∃ t u, exec (.writePort (.port .A) 0x0F) base = .next t ∧
    exec (.readPort (.port .A)) t = .next u := ⟨_, _, rfl, rfl⟩

theorem witness_PeripheralFrame : (∃ t, exec (.voice (.code .v01)) base = .next t) ∧ (∃ t, exec (.status (.device .Fan3)) base = .next t) ∧
    (∃ t, exec (.configTimer 1 3) base = .next t) ∧ (∃ t, exec .tickTimer base = .next t) ∧ (∃ t, exec (.writeCtrl 1) base = .next t) ∧
    (∃ t, exec (.readPort (.unknown ['D'])) base = .next t) := ⟨exec_next _ _, exec_next _ _, exec_next _ _, exec_next _ _, exec_next _ _, exec_next _ _⟩

/-- The indices next to the ends of the channel list. -/
theorem witness_TimerOperations : ((-1 : Int) < 0 ∧ (base.timers.length : Int) ≤ 1) ∧
    base.timers[0]? = some TimerChannel.reset := by decide

theorem witness_TimerCountsDown : (1 : Word) ≠ 0 ∧ 0 < (1 : Word).toNat ∧ (1 : Word).toNat ≤ 1 := by decide

theorem witness_PpiOperations : ¬(((2 : Int) = 0 ∨ (2 : Int) = 1) ∧ ((0 : Int) = 0 ∨ (0 : Int) = 1)) ∧ base.ppi.cs = true ∧
    (ppiSetLines false false false base).ppi = { Ppi.reset with rd := false, wr := false, cs := false } ∧
    (ppiSetAddress 1 0 base).ppi.a1 = true ∧ (ppiSetAddress 0 1 base).ppi.a0 = true := by decide

theorem witness_PortModesReported : ∃ m : Port → Nat, ∀ p, m p = base.ppi.ctrl.toNat / 2 ^ ((fun _ => 6 : Port → Fin 7) p).val % 4 :=
  ⟨_, fun _ => rfl⟩

theorem witness_PortModesReported_apart : Port.A ≠ .C := by decide

theorem witness_VoiceAndStatusResult : ∃ c, Config.voiceMap c = (.Fan3, false) := Config.voiceMapping.surjective _ _

theorem witness_PicRequestCheckRotate : ((-1 : Int) < 0 ∧ (7 : Int) < 8) ∧ Pic.reset.prio = 0 :: [1, 2, 3, 4, 5, 6, 7] ∧
    Pic.reset.prio.length = 8 := by decide

theorem witness_PicMaskAndService : (5 : Fin 8) ∈ Pic.reset.prio ∧ (Pic.reset.request 5).1.IRR.getLsbD 5 = true ∧
    (Pic.reset.request 5).1.IMR.getLsbD 5 = false ∧ (5 : Fin 8) ≠ 3 ∧ ((-1 : Int) < 0 ∧ (7 : Int) < 8) := by decide

theorem witness_CascadeDelegation : (3 : Fin 8) ≠ 2 ∧
    ((⟨Pic.reset, false, Pic.reset⟩ : PicPair).masterRequest 2).1.cascadePending = true ∧
    (⟨Pic.reset, false, Pic.reset⟩ : PicPair).cascadePending = false ∧ ((-1 : Int) < 0 ∧ (7 : Int) < 8) ∧
    PicOp.endOfInterrupt 8 ∈ [PicOp.mask 8, .unmask 8, .check, .endOfInterrupt 8, .rotatePriority] ∧
    base.pic = .single Pic.reset ∧
    { base with pic := .masterSlave ⟨Pic.reset, false, Pic.reset⟩ }.pic = .masterSlave ⟨Pic.reset, false, Pic.reset⟩ := by
  decide

end Sys2Proof.Tests
end

section
/-! SUPPORT. The fields that pass through an instruction (R36, R37, R40, R48, R50, R51): PF, IF, the interrupt controllers,
the program, the events already in the diagnostic stream, and, but for the three marker directives, the segment marker. No
instruction reads them (the fetch alone reads the program), so replacing them before an instruction or after it comes to the
same. That an instruction does not write such a field follows, but for the stream: put the field's own value back. -/

namespace Sys2Proof.Machine

/-! ## Replacing the fields that pass through -/

/-- What each field that passes through is replaced by; a field not named is kept. -/
structure Overlay where
  /-- PF (R37). -/
  parity    : Bool → Bool := id
  /-- IF (R36). -/
  interrupt : Bool → Bool := id
  /-- The segment marker (R40). -/
  segment   : Segment → Segment := id
  /-- The interrupt controllers (R48). -/
  pic       : PicSystem → PicSystem := id
  /-- The program (R50). -/
  program   : List Line → List Line := id
  /-- Events put before those of the diagnostic stream (R51). -/
  earlier   : List Diag := []

/-- The flags with the replacement made. -/
def Flags.overlay (v : Overlay) (f : Flags) : Flags := { f with PF := v.parity f.PF, IF := v.interrupt f.IF }

/-- The state with the replacement made. -/
def State.overlay (v : Overlay) (s : State) : State :=
  { s with
    flags := s.flags.overlay v
    segment := v.segment s.segment
    pic := v.pic s.pic
    program := v.program s.program
    diags := v.earlier ++ s.diags }

/-- What is left of a replacement after an instruction: a marker directive has overwritten the segment marker. -/
def Overlay.after (v : Overlay) : Instr → Overlay
  | .dotCode => { v with segment := id }
  | .dotData => { v with segment := id }
  | .dotStack => { v with segment := id }
  | _ => v

/-- The next state of an outcome, changed by `f`. -/
def mapNext (f : State → State) : Result → Result
  | .next s => .next (f s)
  | .fault r => .fault r
  | .refused r => .refused r

@[simp] theorem mapNext_next (f : State → State) (s : State) : mapNext f (.next s) = .next (f s) := rfl

/-- An instruction overwrites no replaced field but the segment marker. -/
theorem Overlay.after_eq (v : Overlay) (i : Instr) : ∃ g, v.after i = { v with segment := g } := by
  cases i with
  | dotCode => exact ⟨id, rfl⟩
  | dotData => exact ⟨id, rfl⟩
  | dotStack => exact ⟨id, rfl⟩
  | _ => exact ⟨v.segment, rfl⟩

theorem Overlay.after_of_not_marker (v : Overlay) {i : Instr} (hc : i ≠ .dotCode) (hd : i ≠ .dotData)
    (hs : i ≠ .dotStack) : v.after i = v := by
  cases i with
  | dotCode => exact absurd rfl hc
  | dotData => exact absurd rfl hd
  | dotStack => exact absurd rfl hs
  | _ => rfl

/-! ## What is read is not replaced -/

section
variable (v : Overlay) (s : State)

@[simp] theorem State.overlay_getReg (r : Reg) : (s.overlay v).getReg r = s.getReg r := rfl
@[simp] theorem State.overlay_flags : (s.overlay v).flags = s.flags.overlay v := rfl
@[simp] theorem State.overlay_status : (s.overlay v).status = s.status := rfl
@[simp] theorem State.overlay_top? : (s.overlay v).top? = s.top? := rfl
@[simp] theorem State.overlay_ppi : (s.overlay v).ppi = s.ppi := rfl
@[simp] theorem State.overlay_failed : (s.overlay v).failed = s.failed := rfl
@[simp] theorem State.overlay_siAddr : (s.overlay v).siAddr = s.siAddr := rfl
@[simp] theorem State.overlay_diAddr : (s.overlay v).diAddr = s.diAddr := rfl
@[simp] theorem State.overlay_memRead1 (a : Int) : (s.overlay v).memRead1 a = s.memRead1 a := rfl
@[simp] theorem State.overlay_memRead2 (a : Int) : (s.overlay v).memRead2 a = s.memRead2 a := rfl
@[simp] theorem readOp_overlay (o : Operand) : readOp o (s.overlay v) = readOp o s := rfl
@[simp] theorem dest?_overlay (o : Operand) : dest? o (s.overlay v) = dest? o s := rfl
@[simp] theorem target_overlay (o : Operand) : target o (s.overlay v) = target o s := rfl

/-! ## A replacement commutes with the named updates -/

@[simp] theorem State.overlay_setReg (r : Reg) (w : Word) : (s.overlay v).setReg r w = (s.setReg r w).overlay v := rfl
@[simp] theorem State.overlay_setFlags (f : Flags) :
    (s.overlay v).setFlags (f.overlay v) = (s.setFlags f).overlay v := rfl
@[simp] theorem State.overlay_push (w : Word) : (s.overlay v).push w = (s.push w).overlay v := rfl
@[simp] theorem State.overlay_dropTop : (s.overlay v).dropTop = s.dropTop.overlay v := rfl
@[simp] theorem State.overlay_jumpTo (t : Word) : (s.overlay v).jumpTo t = (s.jumpTo t).overlay v := rfl
@[simp] theorem State.overlay_stepPointers (w : Word) :
    (s.overlay v).stepPointers w = (s.stepPointers w).overlay v := rfl
@[simp] theorem State.overlay_compare (a b : Word) : (s.overlay v).compare a b = (s.compare a b).overlay v := rfl

@[simp] theorem State.overlay_emit (d : Diag) : (s.overlay v).emit d = (s.emit d).overlay v := by
  simp [State.emit, State.emitAll, State.overlay]

@[simp] theorem State.overlay_retire : (s.overlay v).retire = s.retire.overlay v := by
  unfold State.retire
  rw [State.overlay_failed]
  split <;> rfl

@[simp] theorem State.overlay_memWrite1 (a : Int) (b : Byte) :
    (s.overlay v).memWrite1 a b = State.overlay v <$> s.memWrite1 a b := by
  unfold State.memWrite1
  split <;> rfl

@[simp] theorem State.overlay_memWrite2 (a : Int) (w : Word) :
    (s.overlay v).memWrite2 a w = State.overlay v <$> s.memWrite2 a w := by
  unfold State.memWrite2
  split <;> rfl

theorem storeAt_overlay (d : Dest) (w : Word) : storeAt d w (s.overlay v) = State.overlay v <$> storeAt d w s := by
  cases d with
  | reg r => rfl
  | label t => rfl
  | memory a => exact State.overlay_memWrite2 v s a w

@[simp] theorem writeOp_overlay (o : Operand) (w : Word) :
    writeOp o w (s.overlay v) = State.overlay v <$> writeOp o w s := by
  unfold writeOp
  rw [dest?_overlay]
  split
  · exact storeAt_overlay v s _ w
  · rfl

@[simp] theorem commit_overlay (x : Except FatalError State) :
    commit (s.overlay v) (State.overlay v <$> x) = mapNext (State.overlay v) (commit s x) := by
  cases x <;> rfl

@[simp] theorem finish_mapNext_overlay (r : Result) :
    finish (mapNext (State.overlay v) r) = mapNext (State.overlay v) (finish r) := by
  cases r with
  | next t => exact congrArg Host.Outcome.next (State.overlay_retire v t)
  | fault e => rfl
  | refused e => rfl

/-! ## A replacement commutes with the shared parts of the instructions -/

/-- A line that commits a computation which the replacement passes through. -/
theorem commit_overlay_of_eq {x y : Except FatalError State} (h : y = State.overlay v <$> x) :
    commit (s.overlay v) y = mapNext (State.overlay v) (commit s x) := by
  rw [h, commit_overlay]

theorem aluLine2_overlay {op : Word → Word → Flags → AluOut}
    (hop : ∀ a b f, op a b (f.overlay v) = ⟨(op a b f).value, (op a b f).flags.overlay v⟩) (dst src : Operand) :
    aluLine2 op dst src (s.overlay v) = mapNext (State.overlay v) (aluLine2 op dst src s) := by
  apply commit_overlay_of_eq
  simp [hop]

theorem aluLine1_overlay {op : Word → Flags → AluOut}
    (hop : ∀ a f, op a (f.overlay v) = ⟨(op a f).value, (op a f).flags.overlay v⟩) (dst : Operand) :
    aluLine1 op dst (s.overlay v) = mapNext (State.overlay v) (aluLine1 op dst s) := by
  apply commit_overlay_of_eq
  simp [hop]

theorem execPop_overlay (dst : Operand) :
    execPop dst (s.overlay v) = mapNext (State.overlay v) (execPop dst s) := by
  unfold execPop
  rw [State.overlay_top?]
  split <;> simp

theorem execRet_overlay : execRet (s.overlay v) = mapNext (State.overlay v) (execRet s) := by
  unfold execRet
  rw [State.overlay_top?]
  split <;> simp

theorem execMovsb_overlay : execMovsb (s.overlay v) = mapNext (State.overlay v) (execMovsb s) := by
  apply commit_overlay_of_eq
  simp

theorem execMovsw_overlay : execMovsw (s.overlay v) = mapNext (State.overlay v) (execMovsw s) := by
  apply commit_overlay_of_eq
  simp

theorem execCmpsb_overlay : execCmpsb (s.overlay v) = mapNext (State.overlay v) (execCmpsb s) := by
  apply commit_overlay_of_eq
  simp

theorem execCmpsw_overlay : execCmpsw (s.overlay v) = mapNext (State.overlay v) (execCmpsw s) := by
  apply commit_overlay_of_eq
  simp

theorem onChannel_overlay (c : Int) (f : TimerChannel → TimerChannel) :
    onChannel c f (s.overlay v) = (onChannel c f s).overlay v := by
  rcases onChannel_cases c f s with ⟨hc, h⟩ | ⟨hc, h⟩
  · rcases onChannel_cases c f (s.overlay v) with ⟨-, h'⟩ | ⟨hn, -⟩
    · rw [h, h']; rfl
    · exact absurd hc hn
  · rcases onChannel_cases c f (s.overlay v) with ⟨hn, -⟩ | ⟨-, h'⟩
    · exact absurd hn hc
    · rw [h, h', State.overlay_emit]

theorem tickTimerWith_overlay (p : Config.TickRules) :
    tickTimerWith p (s.overlay v) = (tickTimerWith p s).overlay v := by
  have h : timerTick 0 (s.overlay v) = (timerTick 0 s).overlay v := onChannel_overlay v s 0 _
  simp only [tickTimerWith, h]
  rfl

theorem ppiSetAddress_overlay (a1 a0 : Int) :
    ppiSetAddress a1 a0 (s.overlay v) = (ppiSetAddress a1 a0 s).overlay v := by
  unfold ppiSetAddress
  split
  · rfl
  · exact State.overlay_emit v s _

theorem ppiSetLines_overlay (rd wr cs : Bool) :
    ppiSetLines rd wr cs (s.overlay v) = (ppiSetLines rd wr cs s).overlay v := rfl

theorem ppiWrite_overlay (b : Byte) : ppiWrite b (s.overlay v) = (ppiWrite b s).overlay v := by
  unfold ppiWrite
  rw [State.overlay_ppi]
  split
  · rfl
  · exact State.overlay_emit v s _

theorem ppiRead_overlay : ppiRead (s.overlay v) = (ppiRead s).overlay v := by
  unfold ppiRead
  rw [State.overlay_ppi]
  split
  · rfl
  · exact State.overlay_emit v s _

theorem writeRegister_overlay (a : Int × Int) (b : Byte) :
    writeRegister a b (s.overlay v) = (writeRegister a b s).overlay v := by
  unfold writeRegister
  rw [ppiSetAddress_overlay, ppiSetLines_overlay, ppiWrite_overlay]

theorem readRegister_overlay (a : Int × Int) :
    readRegister a (s.overlay v) = (readRegister a s).overlay v := by
  unfold readRegister
  rw [ppiSetAddress_overlay, ppiSetLines_overlay, ppiRead_overlay]

/-! ## Instructions and steps -/

/-- Every instruction has the effect it would have without the replacement, which then stands on its result. -/
theorem exec_overlay (i : Instr) : exec i (s.overlay v) = mapNext (State.overlay (v.after i)) (exec i s) := by
  cases i with
  | mov dst src => exact commit_overlay_of_eq v s (by simp)
  | add dst src => exact aluLine2_overlay v s (fun _ _ _ => rfl) dst src
  | sub dst src => exact aluLine2_overlay v s (fun _ _ _ => rfl) dst src
  | mul dst src => exact aluLine2_overlay v s (fun _ _ _ => rfl) dst src
  | div dst src => exact aluLine2_overlay v s (fun _ _ _ => rfl) dst src
  | and dst src => exact aluLine2_overlay v s (fun _ _ _ => rfl) dst src
  | or dst src => exact aluLine2_overlay v s (fun _ _ _ => rfl) dst src
  | xor dst src => exact aluLine2_overlay v s (fun _ _ _ => rfl) dst src
  | not dst => exact aluLine1_overlay v s (fun _ _ => rfl) dst
  | push src => exact commit_overlay_of_eq v s (by simp)
  | pop dst => exact execPop_overlay v s dst
  | jmp tgt => exact commit_overlay_of_eq v s (by simp)
  | call tgt => exact commit_overlay_of_eq v s (by simp)
  | ret => exact execRet_overlay v s
  | movsb => exact execMovsb_overlay v s
  | movsw => exact execMovsw_overlay v s
  | cmpsb => exact execCmpsb_overlay v s
  | cmpsw => exact execCmpsw_overlay v s
  | voice arg =>
    cases arg with
    | code c => rfl
    | unknown t => exact congrArg Host.Outcome.next (State.overlay_emit v s _)
  | status arg => cases arg <;> exact congrArg Host.Outcome.next (State.overlay_emit v s _)
  | configTimer mode value => exact congrArg Host.Outcome.next (onChannel_overlay v s 0 _)
  | startTimer => exact congrArg Host.Outcome.next (onChannel_overlay v s 0 _)
  | stopTimer => exact congrArg Host.Outcome.next (onChannel_overlay v s 0 _)
  | tickTimer => exact congrArg Host.Outcome.next (tickTimerWith_overlay v s _)
  | writeCtrl b => exact congrArg Host.Outcome.next (writeRegister_overlay v s _ b)
  | writePort arg b =>
    cases arg with
    | port p => exact congrArg Host.Outcome.next (writeRegister_overlay v s _ b)
    | unknown t => exact congrArg Host.Outcome.next (State.overlay_emit v s _)
  | readPort arg =>
    cases arg with
    | port p => exact congrArg Host.Outcome.next (readRegister_overlay v s _)
    | unknown t => exact congrArg Host.Outcome.next (State.overlay_emit v s _)
  | unknown tok => exact congrArg Host.Outcome.next (State.overlay_emit v s _)
  | _ => rfl

/-- A step passes a replacement that keeps the program through, as some instruction does: the one that ran, or `.empty`
where none ran. -/
theorem step_overlay (hp : v.program s.program = s.program) :
    ∃ i, step (s.overlay v) = mapNext (State.overlay (v.after i)) (step s) := by
  have hf : (s.overlay v).fetch = s.fetch := congrArg (·[(s.getReg .IP).toNat]?) hp
  unfold step
  rw [State.overlay_status, hf]
  split
  · split
    · exact ⟨.empty, rfl⟩
    · split
      · next i _ => exact ⟨i, by rw [exec_overlay, finish_mapNext_overlay]⟩
      · exact ⟨.empty, rfl⟩
  · exact ⟨.empty, rfl⟩
  · exact ⟨.empty, rfl⟩
  · exact ⟨.empty, rfl⟩

end

/-! ## The fields that pass through are kept -/

/-- The replacement of each field by the value it has in `s`. -/
def Overlay.pin (s : State) : Overlay where
  parity := fun _ => s.flags.PF
  interrupt := fun _ => s.flags.IF
  segment := fun _ => s.segment
  pic := fun _ => s.pic
  program := fun _ => s.program

theorem State.overlay_pin (s : State) : s.overlay (.pin s) = s := rfl

/-- An instruction keeps a state's own values pinned. -/
theorem exec_pinned {i : Instr} {s t : State} (h : exec i s = .next t) : t = t.overlay ((Overlay.pin s).after i) := by
  have hv := exec_overlay (.pin s) s i
  rw [State.overlay_pin, h] at hv
  exact Host.Outcome.next.inj hv

/-- A step keeps a state's own values pinned. -/
theorem step_pinned {s t : State} (h : step s = .next t) : ∃ i, t = t.overlay ((Overlay.pin s).after i) := by
  obtain ⟨i, hv⟩ := step_overlay (.pin s) s rfl
  rw [State.overlay_pin, h] at hv
  exact ⟨i, Host.Outcome.next.inj hv⟩

/-- The fields that pass through every instruction are in `t` what they are in `s`. -/
structure SamePassThrough (s t : State) : Prop where
  parity    : t.flags.PF = s.flags.PF
  interrupt : t.flags.IF = s.flags.IF
  pic       : t.pic = s.pic
  program   : t.program = s.program

theorem samePassThrough_of_pinned {s t : State} {i : Instr} (h : t = t.overlay ((Overlay.pin s).after i)) :
    SamePassThrough s t := by
  obtain ⟨g, hg⟩ := (Overlay.pin s).after_eq i
  rw [hg] at h
  rw [h]
  exact ⟨rfl, rfl, rfl, rfl⟩

theorem exec_samePassThrough {i : Instr} {s t : State} (h : exec i s = .next t) : SamePassThrough s t :=
  samePassThrough_of_pinned (exec_pinned h)

theorem step_samePassThrough {s t : State} (h : step s = .next t) : SamePassThrough s t := by
  obtain ⟨i, hi⟩ := step_pinned h
  exact samePassThrough_of_pinned hi

/-! ## The obligations -/

/-- Settles O7: the program passes through every instruction and every step. -/
theorem programNeverWritten : Obligations.ProgramNeverWritten :=
  ⟨fun _ _ _ h => (exec_samePassThrough h).program, fun _ _ h => (step_samePassThrough h).program⟩

/-- Settles O8: PF is false at reset and passes through every instruction and every step. -/
theorem parityNeverComputed : Obligations.ParityNeverComputed :=
  ⟨rfl, fun _ _ _ h => (exec_samePassThrough h).parity, fun _ _ hs h => (step_samePassThrough h).parity.trans hs⟩

/-- Settles O42: but for the three directives that write it, the segment marker passes through. -/
theorem segmentMarkerInformational : Obligations.SegmentMarkerInformational := by
  refine ⟨fun s => ⟨rfl, rfl, rfl⟩, fun i s t x hc hd hs h => ⟨?_, ?_⟩, fun s t x h => ?_⟩
  · have hp := exec_pinned h
    rw [Overlay.after_of_not_marker _ hc hd hs] at hp
    exact congrArg (fun u => u.segment) hp
  · have hv := exec_overlay { segment := fun _ => x } s i
    rwa [Overlay.after_of_not_marker _ hc hd hs, h] at hv
  · obtain ⟨i, hi⟩ := step_overlay { segment := fun _ => x } s rfl
    obtain ⟨g, hg⟩ := Overlay.after_eq { segment := fun _ => x } i
    rw [h, hg] at hi
    exact ⟨g t.segment, hi⟩

end Sys2Proof.Machine
end

section
/-! SUPPORT. Data memory (20_memory.md): each primitive as one equation, its range spelled as in R82 to R85, and the bytes
a word write leaves. -/

namespace Sys2Proof.Machine

theorem inRange_byte_iff (a : Int) : inRange a 1 = true ↔ 0 ≤ a ∧ a ≤ 255 := by
  rw [inRange_iff]
  omega

theorem inRange_word_iff (a : Int) : inRange a 2 = true ↔ 0 ≤ a ∧ a + 1 ≤ 255 := by
  rw [inRange_iff]
  omega

section
variable (s : State) (a : Int)

theorem State.memRead1_eq : s.memRead1 a =
    if 0 ≤ a ∧ a ≤ 255 then .ok (s.readByte a.toNat) else .error (.addressing (.address a)) := by
  simp only [State.memRead1, inRange_byte_iff, addressError]

theorem State.memWrite1_eq (b : Byte) : s.memWrite1 a b =
    if 0 ≤ a ∧ a ≤ 255 then .ok (s.writeByte a.toNat b) else .error (.addressing (.address a)) := by
  simp only [State.memWrite1, inRange_byte_iff, addressError]

theorem State.memRead2_eq : s.memRead2 a =
    if 0 ≤ a ∧ a + 1 ≤ 255 then .ok (joinBytes (s.readByte a.toNat) (s.readByte (a.toNat + 1)))
    else .error (.addressing (.address a)) := by
  simp only [State.memRead2, inRange_word_iff, addressError]

theorem State.memWrite2_eq (v : Word) : s.memWrite2 a v =
    if 0 ≤ a ∧ a + 1 ≤ 255 then .ok ((s.writeByte a.toNat (hiByte v)).writeByte (a.toNat + 1) (loByte v))
    else .error (.addressing (.address a)) := by
  simp only [State.memWrite2, inRange_word_iff, addressError]

end

/-- The two byte writes of R85 do not overlap, so the later one leaves the high byte in place. -/
theorem State.writeWord_readByte (s : State) (n x : Nat) (v : Word) :
    ((s.writeByte n (hiByte v)).writeByte (n + 1) (loByte v)).readByte x =
      if x = n then hiByte v else if x = n + 1 then loByte v else s.readByte x := by
  rw [State.writeByte_readByte, State.writeByte_readByte]
  by_cases h : x = n
  · rw [if_neg (by omega), if_pos h, if_pos h]
  · rw [if_neg h, if_neg h]

/-- Settles O21: outside the range each primitive's equation takes its error branch, inside it reads or writes the bytes. -/
theorem memoryPrimitives : Obligations.MemoryPrimitives := by
  intro s a
  refine ⟨fun hout => ?byteOutside, fun hout => ?wordOutside, fun hin => ?byteInside, fun hin => ?wordInside⟩
  case byteOutside =>
    exact ⟨by rw [State.memRead1_eq, if_neg hout], fun b => by rw [State.memWrite1_eq, if_neg hout]⟩
  case wordOutside =>
    exact ⟨by rw [State.memRead2_eq, if_neg hout], fun v => by rw [State.memWrite2_eq, if_neg hout]⟩
  case byteInside =>
    exact ⟨by rw [State.memRead1_eq, if_pos hin],
      fun b => ⟨_, by rw [State.memWrite1_eq, if_pos hin], fun x => State.writeByte_readByte s a.toNat x b⟩⟩
  case wordInside =>
    refine ⟨⟨_, by rw [State.memRead2_eq, if_pos hin], joinBytes_toNat _ _⟩,
      fun v => ⟨_, by rw [State.memWrite2_eq, if_pos hin], fun x => ?_⟩⟩
    rw [State.writeWord_readByte, apply_ite BitVec.toNat, apply_ite BitVec.toNat, hiByte_toNat, loByte_toNat]

end Sys2Proof.Machine
end

section
/-! SUPPORT. The text of a line and of an operand (30_encoding.md): the line classes of R102 that carry a first token, the
forms of literals, registers and other spellings (R105, R122), and what `ReadOp` answers without a memory access (R120). -/

namespace Sys2Proof.Machine

/-! ## The line classes (R102) -/

theorem endsWithColon_eq_false {t : Token} : endsWithColon t = false ↔ t.getLast? ≠ some ':' := by
  simp [endsWithColon]

@[simp] theorem decodeTokens_mnemonic (m : Mnemonic) (ops : List Token) :
    decodeTokens (m.text :: ops) = decodeOperands m ops := by
  simp [decodeTokens, Mnemonic.text_no_colon, mnemonic?_text]

theorem decodeTokens_unknown {t : Token} (hcolon : endsWithColon t = false) (hname : mnemonic? t = none)
    (ops : List Token) : decodeTokens (t :: ops) = .ok (.unknown t) := by
  simp [decodeTokens, hcolon, hname]

theorem decode_of_mnemonic {line : Line} {m : Mnemonic} {ops : List Token} (h : tokenize line = m.text :: ops) :
    decode line = decodeOperands m ops := by
  rw [decode, h, decodeTokens_mnemonic]

/-- Settles O11: each line's tokens are a mnemonic and the operand tokens its format reads. -/
theorem workedEncodingsDecode : Obligations.WorkedEncodingsDecode := by
  have hmov : tokenize ['M', 'O', 'V', ' ', 'A', 'X', ' ', '5'] = [Mnemonic.mov.text, ['A', 'X'], ['5']] := by decide
  refine ⟨hmov, ?mov, ?configTimer, ?writePort, ?readPort, ?hlt⟩
  case mov => exact (decode_of_mnemonic hmov).trans rfl
  case configTimer => exact (decode_of_mnemonic (m := .configTimer) (ops := [['1'], ['3']]) (by decide)).trans rfl
  case writePort => exact (decode_of_mnemonic (m := .writePort) (ops := [['A'], ['0', 'F']]) (by decide)).trans rfl
  case readPort => exact (decode_of_mnemonic (m := .readPort) (ops := [['A']]) (by decide)).trans rfl
  case hlt => exact (decode_of_mnemonic (m := .hlt) (ops := []) (by decide)).trans rfl

/-! ## A line that runs (R250, R251) -/

theorem step_of_decode {s : State} {line : Line} {i : Instr} (hrun : s.status = .running)
    (hfetch : s.fetch = some line) (hdecode : decode line = .ok i) : step s = finish (exec i s) := by
  simp [step, hrun, hfetch, hdecode]

theorem State.failed_of_running {s : State} (hrun : s.status = .running) : s.failed = false := by
  simp [State.failed, hrun]

theorem finish_of_running {s : State} (hrun : s.status = .running) : finish (.next s) = .next s.advance := by
  rw [finish, State.retire_ok (State.failed_of_running hrun)]

theorem exec_unknown (t : Token) (s : State) : exec (.unknown t) s = .next (s.emit (.unknownOpcode t)) := rfl

/-- Settles O46: the line decodes as an unknown opcode, whose event leaves the machine running, so that IP advances. -/
theorem unknownOpcodeFallsThrough : Obligations.UnknownOpcodeFallsThrough := by
  refine ⟨fun s line t ops hrun hfetch htok hcolon hname => ⟨exec_unknown t s, ?step⟩, fun t ht => ?words⟩
  case step =>
    have hdecode : decode line = .ok (.unknown t) := by
      rw [decode, htok]
      exact decodeTokens_unknown (endsWithColon_eq_false.mpr hcolon) (mnemonic?_eq_none.mpr hname) ops
    calc step s = finish (.next (s.emit (.unknownOpcode t))) := step_of_decode hrun hfetch hdecode
      _ = .next (s.emit (.unknownOpcode t)).advance := finish_of_running hrun
  case words =>
    obtain ⟨hcolon, hname⟩ : endsWithColon t = false ∧ mnemonic? t = none := by
      revert t
      decide
    exact decodeTokens_unknown hcolon hname []

/-! ## The form of an operand token (R105, R107, R122) -/

theorem regName?_eq_none {t : Token} : regName? t = none ↔ ∀ r : Reg, r.text ≠ t := by
  constructor
  · rintro h r rfl
    simp [regName?_text] at h
  · exact fun h => Option.eq_none_iff_forall_ne_some.mpr fun r hr => h r (regName?_eq_some hr)

theorem formOf_of_decimal {t : Token} {n : Int} (h : decimal? t = some n) : formOf t = .imm n := by
  simp [formOf, h]

@[simp] theorem formOf_text (r : Reg) : formOf r.text = .reg r := by cases r <;> decide

/-- A token that spells no literal and no register has neither's form. -/
theorem formOf_ne {t : Token} (hd : decimal? t = none) (hr : regName? t = none) :
    (∀ n, formOf t ≠ .imm n) ∧ ∀ r, formOf t ≠ .reg r := by
  unfold formOf
  rw [hd, hr]
  dsimp only
  split
  · exact innerForm_ne _
  · simp

/-! ## The modes of `ReadOp` (R120, R121) -/

section
variable {o : Operand} {s : State}

theorem readOp_imm {n : Int} (h : o.form = .imm n) : readOp o s = .ok (u16 n) := by
  simp [readOp, source?, h]

theorem readOp_reg {r : Reg} (h : o.form = .reg r) : readOp o s = .ok (s.getReg r) := by
  simp [readOp, source?, h]

/-- The key's entry comes before the modes that read data memory. -/
theorem readOp_key {v : Word} (hi : ∀ n, o.form ≠ .imm n) (hr : ∀ r, o.form ≠ .reg r)
    (hk : s.dst.find? o.tok = some v) : readOp o s = .ok v := by
  have h : source? o s = some (.value v) := by
    unfold source?
    split
    · next n hn => exact absurd hn (hi n)
    · next r hn => exact absurd hn (hr r)
    · rw [hk]
  rw [readOp, h]

/-- An operand that is no key and whose form reads nothing resolves to nothing. -/
theorem readOp_unreadable (hk : s.dst.find? o.tok = none)
    (hf : o.form = .other ∨ (∃ n, o.form = .ipRel n) ∨ ∃ r1 r2, o.form = .indexed r1 r2) :
    readOp o s = .error (.addressing (.token o.tok)) := by
  have h : source? o s = none := by
    rcases hf with hf | ⟨n, hf⟩ | ⟨r1, r2, hf⟩ <;> simp [source?, readAddr?, hf, hk]
  rw [readOp, h, tokenError]

end

/-- Settles O17: AL and FOO are among the words with no form. -/
theorem unreadableTokensRaise : Obligations.UnreadableTokensRaise := by
  refine ⟨fun t s hk hf => readOp_unreadable hk hf, fun t s ht hk => readOp_unreadable hk (.inl ?_)⟩
  show formOf t = .other
  clear hk
  revert t
  decide

/-- Settles O18: a token has the form of a literal or a register whatever the table holds, and only otherwise is it a key. -/
theorem labelsReadAfterLiteralsAndRegisters : Obligations.LabelsReadAfterLiteralsAndRegisters := by
  refine fun t s => ⟨fun v hk hd hr => ?label, fun n hd => readOp_imm (formOf_of_decimal hd), ?register⟩
  case label =>
    obtain ⟨hi, hr⟩ := formOf_ne hd (regName?_eq_none.mpr hr)
    exact readOp_key hi hr hk
  case register =>
    rintro r rfl
    exact readOp_reg (formOf_text r)

end Sys2Proof.Machine
end

section
/-! SUPPORT. The carry instructions (43_string_flag.md, R294, R295) and the format of a line without operand tokens
(R103). -/

namespace Sys2Proof.Machine

theorem formatF0_eq (m : Mnemonic) (i : Instr) (ops : List Token) :
    formatF0 m i ops = if ops = [] then .ok i else .error (.tokenCount m) := by
  cases ops with
  | nil => rfl
  | cons _ _ => rfl

/-- Every mnemonic of format F0 meets `hformat` by `rfl`. -/
theorem decode_of_formatF0 {line : Line} {m : Mnemonic} {i : Instr} {ops : List Token}
    (hformat : decodeOperands m ops = formatF0 m i ops) (h : tokenize line = m.text :: ops) :
    decode line = if ops = [] then .ok i else .error (.tokenCount m) := by
  rw [decode_of_mnemonic h, hformat, formatF0_eq]

theorem exec_stc (s : State) : exec .stc s = .next { s with flags := { s.flags with CF := true } } := rfl

theorem exec_clc (s : State) : exec .clc s = .next { s with flags := { s.flags with CF := false } } := rfl

/-- Settles O39: each line is its mnemonic in format F0, and running it writes CF alone. -/
theorem carrySetAndClear : Obligations.CarrySetAndClear := by
  refine ⟨fun s => ⟨exec_stc s, exec_clc s⟩, fun line ops h => ?stc, fun line ops h => ?clc⟩
  case stc => exact decode_of_formatF0 (m := .stc) rfl h
  case clc => exact decode_of_formatF0 (m := .clc) rfl h

end Sys2Proof.Machine
end

section
/-! SUPPORT. PROC (44_directives.md, R316), what `Target` answers for a key of the Procedure Table (R131) and the format of
a line with one operand token (R103). -/

namespace Sys2Proof.Machine

theorem formatF1_of_length_ne {m : Mnemonic} {k : Token → Except DecodeReject Instr} {ops : List Token}
    (h : ops.length ≠ 1) : formatF1 m k ops = .error (.tokenCount m) := by
  match ops with
  | [] => rfl
  | [_] => exact absurd rfl h
  | _ :: _ :: _ => rfl

/-- A key of the Procedure Table is a target: its entry, unless the Label Table has one. -/
theorem target_of_procs {o : Operand} {s : State} {v : Word} (h : s.procs.find? o.tok = some v) :
    target o s = .ok ((s.labels.find? o.tok).getD v) := by
  unfold target
  cases s.labels.find? o.tok with
  | some w => rfl
  | none => rw [h]; rfl

theorem exec_proc (n : Token) (s : State) :
    exec (.proc n) s = .next { s with procs := s.procs.insert n (s.getReg .IP) } := rfl

/-- Settles O44: PROC inserts its own index under the name, which `Target` then finds, and leaves the machine running, so
that IP advances. -/
theorem procedureDefinition : Obligations.ProcedureDefinition := by
  refine ⟨fun n s => ?exec, fun n s line hrun hfetch hdecode => ?step, fun line ops htok => ?decode⟩
  case exec =>
    have hprocs (k : Token) : (s.procs.insert n (s.getReg .IP)).find? k =
        if k = n then some (s.getReg .IP) else s.procs.find? k := by
      simp only [Table.find?_insert, eq_comm (a := n)]
    refine ⟨_, exec_proc n s, hprocs, rfl, ?_⟩
    rintro o rfl
    exact target_of_procs ((hprocs o.tok).trans (if_pos rfl))
  case step =>
    refine ⟨_, exec_proc n s, ?_⟩
    calc step s = finish (exec (.proc n) s) := step_of_decode hrun hfetch hdecode
      _ = .next (State.advance { s with procs := s.procs.insert n (s.getReg .IP) }) := finish_of_running hrun
  case decode =>
    have hline : decode line = decodeOperands .proc ops := decode_of_mnemonic htok
    constructor
    · rintro n rfl
      exact hline
    · intro hlen
      exact hline.trans (formatF1_of_length_ne hlen)

end Sys2Proof.Machine
end

section
/-! SUPPORT. The timer's operations on a channel that exists and on an index of none (60_exceptions.md, R421 to R425). -/

namespace Sys2Proof.Machine

/-- Each of the four operations applies one function to the channel. -/
theorem timerOperation_eq_onChannel {c mode : Int} {n : Word} {s t : State}
    (h : t ∈ [timerConfigure c mode n s, timerStart c s, timerStop c s, timerTick c s]) :
    ∃ f, t = onChannel c f s := by
  simp only [List.mem_cons, List.not_mem_nil, or_false] at h
  rcases h with rfl | rfl | rfl | rfl
  · exact ⟨TimerChannel.configure mode n, rfl⟩
  · exact ⟨TimerChannel.start, rfl⟩
  · exact ⟨TimerChannel.stop, rfl⟩
  · exact ⟨TimerChannel.tick, rfl⟩

theorem onChannel_of_outside {c : Int} {s : State} (h : c < 0 ∨ (s.timers.length : Int) ≤ c)
    (f : TimerChannel → TimerChannel) : onChannel c f s = s.emit (.invalidChannel c) := by
  rcases onChannel_cases c f s with ⟨hin, -⟩ | ⟨-, heq⟩
  · omega
  · exact heq

section
variable {k : Nat} {ch : TimerChannel} {s : State} (h : s.timers[k]? = some ch) (f : TimerChannel → TimerChannel)
include h

theorem onChannel_of_channel : onChannel k f s = { s with timers := updateAt f k s.timers } := by
  obtain ⟨hk, -⟩ := List.getElem?_eq_some_iff.mp h
  rcases onChannel_cases k f s with ⟨-, heq⟩ | ⟨hout, -⟩
  · exact heq
  · omega

theorem onChannel_timers_getElem? (j : Nat) :
    (onChannel k f s).timers[j]? = if j = k then some (f ch) else s.timers[j]? := by
  rw [onChannel_of_channel h]
  show (updateAt f k s.timers)[j]? = _
  rw [updateAt_getElem?]
  split
  · next hj => rw [hj, h, Option.map_some]
  · rfl

end

/-- Settles O54: outside the channels the shared check emits the event, and on a channel each operation applies its own
function to that entry of the list alone. -/
theorem timerOperations : Obligations.TimerOperations := by
  refine fun c mode n s => ⟨fun hout t ht => ?outside, ?channel⟩
  case outside =>
    obtain ⟨f, rfl⟩ := timerOperation_eq_onChannel ht
    exact onChannel_of_outside hout f
  case channel =>
    rintro k ch rfl h
    refine ⟨onChannel_timers_getElem? h (TimerChannel.configure mode n), onChannel_timers_getElem? h TimerChannel.start,
      onChannel_timers_getElem? h TimerChannel.stop, onChannel_timers_getElem? h TimerChannel.tick, fun t ht => ?frame⟩
    obtain ⟨f, rfl⟩ := timerOperation_eq_onChannel ht
    rw [onChannel_of_channel h]

end Sys2Proof.Machine
end

section
/-! SUPPORT. The PIC's request, check and rotation (60_exceptions.md, R441, R444, R447). -/

namespace Sys2Proof.Machine

theorem Pic.request_valid (k : Fin 8) (p : Pic) :
    p.request k.val = ({ p with IRR := setBit p.IRR k }, []) := withIrq_valid k Pic.requestIrq p

theorem Pic.request_invalid {k : Int} (h : k < 0 ∨ 7 < k) (p : Pic) : p.request k = (p, [.invalidIRQ k]) :=
  withIrq_invalid k h Pic.requestIrq p

/-- The test `check` makes of an IRQ: pending and not masked. -/
theorem testBit_and_not_testBit (p : Pic) (k : Fin 8) : (testBit p.IRR k && !testBit p.IMR k) = true ↔
    p.IRR.getLsbD k.val = true ∧ p.IMR.getLsbD k.val = false := by
  simp [testBit]

theorem Pic.check_eq_some_iff {p : Pic} {k : Fin 8} : p.check = some k ↔
    ∃ before after, p.prio = before ++ k :: after ∧
      (p.IRR.getLsbD k.val = true ∧ p.IMR.getLsbD k.val = false) ∧
      ∀ j ∈ before, ¬(p.IRR.getLsbD j.val = true ∧ p.IMR.getLsbD j.val = false) := by
  simp only [Pic.check, List.find?_eq_some_iff_append, Bool.not_eq_true', ← Bool.not_eq_true, testBit_and_not_testBit]
  constructor
  · rintro ⟨hk, before, after, hprio, hbefore⟩
    exact ⟨before, after, hprio, hk, hbefore⟩
  · rintro ⟨before, after, hprio, hk, hbefore⟩
    exact ⟨hk, before, after, hprio, hbefore⟩

theorem Pic.check_eq_none_iff {p : Pic} : p.check = none ↔
    ∀ j ∈ p.prio, ¬(p.IRR.getLsbD j.val = true ∧ p.IMR.getLsbD j.val = false) := by
  simp only [Pic.check, List.find?_eq_none, testBit_and_not_testBit]

theorem Pic.rotate_of_cons {p : Pic} {k : Fin 8} {rest : List (Fin 8)} (h : p.prio = k :: rest) :
    p.rotate = { p with prio := rest ++ [k] } := by
  simp [Pic.rotate, h]

theorem Pic.rotate_prio (p : Pic) : p.rotate.prio = p.prio.rotate 1 := by
  cases h : p.prio with
  | nil => simp [Pic.rotate, h]
  | cons k rest => simp [Pic.rotate_of_cons h]

theorem Pic.iterate_rotate_prio (n : Nat) (p : Pic) : (Pic.rotate^[n] p).prio = p.prio.rotate n := by
  induction n with
  | zero => simp
  | succ n ih => rw [Function.iterate_succ_apply', Pic.rotate_prio, ih, List.rotate_rotate]

/-- Settles O58: `check` is the first match of the priority list, and the eighth rotation is one by the list's length. -/
theorem picRequestCheckRotate : Obligations.PicRequestCheckRotate := by
  refine ⟨fun p k => ?request, fun p k hk => Pic.request_invalid hk p, fun p k => Pic.check_eq_some_iff, fun _ => rfl,
    fun _ => rfl, fun p => Pic.check_eq_none_iff, fun p k rest h => Pic.rotate_of_cons h, fun p hlen => ?eight⟩
  case request =>
    rw [Pic.request_valid]
    exact ⟨rfl, fun j _ => (setBit_getLsbD p.IRR k j).trans (Bool.or_comm _ _), rfl⟩
  case eight =>
    calc (Pic.rotate^[8] p).prio = p.prio.rotate 8 := Pic.iterate_rotate_prio 8 p
      _ = p.prio.rotate p.prio.length := congrArg p.prio.rotate hlen.symm
      _ = p.prio := List.rotate_length p.prio

end Sys2Proof.Machine
end

section
/-! SUPPORT. Division by zero (60_exceptions.md, R405). -/

namespace Sys2Proof.Machine

theorem aluDiv_zero (a : Word) (f : Flags) : aluDiv a 0 f = { value := 0, flags := { f with ZF := true, SF := false } } := by
  have hquot : a / 0 = 0 := BitVec.udiv_zero
  rw [aluDiv_eq, hquot]
  rfl

/-- A write through an operand that succeeds raises no error. -/
theorem writeOp_failed {o : Operand} {v : Word} {s t : State} (h : writeOp o v s = .ok t) : t.failed = s.failed := by
  obtain ⟨-, -, -, -, -, -, hstatus, -⟩ := writeOp_frame h
  rw [State.failed, hstatus, State.failed]

/-- Settles O28: the line completes, as the quotient 0 is written, and writing it raises no error. -/
theorem divisionByZeroIsDefined : Obligations.DivisionByZeroIsDefined := by
  refine fun dst src s t a ha hb hw => ⟨?next, fun hs => (writeOp_failed hw).trans hs⟩
  have hline : exec (.div dst src) s = .next (t.setFlags (aluDiv a 0 s.flags).flags) :=
    aluLine2_ok ha hb (by rwa [aluDiv_zero])
  rw [hline, aluDiv_zero]
  rfl

end Sys2Proof.Machine
end

section
/-! SUPPORT. For each family of instructions one lemma that says everything a line of it can do: MOV and the ALU
(R210 to R218), the Call Stack and control (R252 to R257), the string instructions (R290 to R293). The frames and the
invariant are read off from these. -/

namespace Sys2Proof.Machine

/-- A line that computes in order answers what its first access decides: the error it raises, or the rest of the line. -/
theorem commit_bind_cases {α : Type} {s t : State} {x : Except FatalError α} {f : α → Except FatalError State}
    (h : commit s (x >>= f) = .next t) : (∃ a, x = .ok a ∧ commit s (f a) = .next t) ∨ ∃ e, t = s.raise e := by
  cases x with
  | ok a => exact .inl ⟨a, rfl, h⟩
  | error e => exact .inr ⟨e, (Host.Outcome.next.inj h).symm⟩

theorem commit_ok_eq {s t u : State} (h : commit s (.ok u) = .next t) : t = u := (Host.Outcome.next.inj h).symm

/-- A line of two accesses and an update completes, or raises the first error. -/
theorem commit_two_cases {α β : Type} {s t : State} {x : Except FatalError α} {y : α → Except FatalError β}
    {g : α → β → State} (h : commit s (x >>= fun a => y a >>= fun b => .ok (g a b)) = .next t) :
    (∃ a b, x = .ok a ∧ y a = .ok b ∧ t = g a b) ∨ ∃ e, t = s.raise e := by
  rcases commit_bind_cases h with ⟨a, hx, h⟩ | he
  · rcases commit_bind_cases h with ⟨b, hy, h⟩ | he
    · exact .inl ⟨a, b, hx, hy, commit_ok_eq h⟩
    · exact .inr he
  · exact .inr he

/-! ## MOV and the ALU -/

/-- The flags `new` a line `i` of MOV or the ALU may leave after `old` (R209). -/
structure AluFlags (dst src : Operand) (i : Instr) (old new : Flags) : Prop where
  parity    : new.PF = old.PF
  direction : new.DF = old.DF
  interrupt : new.IF = old.IF
  carry     : i ≠ .add dst src → i ≠ .sub dst src → new.CF = old.CF ∧ new.OF = old.OF
  mov       : i = .mov dst src → new = old

/-- The line `i`, from `s`, writes its destination and its flags, or raises an error. -/
def AluEffect (dst src : Operand) (i : Instr) (s t : State) : Prop :=
  (∃ v u f, writeOp dst v s = .ok u ∧ AluFlags dst src i s.flags f ∧ t = u.setFlags f) ∨ ∃ e, t = s.raise e

theorem aluLine2_effect {op : Word → Word → Flags → AluOut} {dst src : Operand} {i : Instr} {s t : State}
    (hop : ∀ a b, AluFlags dst src i s.flags (op a b s.flags).flags) (h : aluLine2 op dst src s = .next t) :
    AluEffect dst src i s t := by
  rcases aluLine2_cases h with ⟨a, b, u, -, -, hw, ht⟩ | he
  · exact .inl ⟨_, u, _, hw, hop a b, ht⟩
  · exact .inr he

theorem aluLine1_effect {op : Word → Flags → AluOut} {dst src : Operand} {i : Instr} {s t : State}
    (hop : ∀ a, AluFlags dst src i s.flags (op a s.flags).flags) (h : aluLine1 op dst s = .next t) :
    AluEffect dst src i s t := by
  rcases aluLine1_cases h with ⟨a, u, -, hw, ht⟩ | he
  · exact .inl ⟨_, u, _, hw, hop a, ht⟩
  · exact .inr he

theorem execMov_effect {dst src : Operand} {s t : State} (h : execMov dst src s = .next t) :
    AluEffect dst src (.mov dst src) s t := by
  rcases commit_bind_cases h with ⟨v, -, h⟩ | he
  · rcases commit_cases h with hw | ⟨e, -, ht⟩
    · obtain ⟨-, -, -, hf, -⟩ := writeOp_frame hw
      have hkept : AluFlags dst src (.mov dst src) s.flags t.flags :=
        ⟨congrArg Flags.PF hf, congrArg Flags.DF hf, congrArg Flags.IF hf,
          fun _ _ => ⟨congrArg Flags.CF hf, congrArg Flags.OF hf⟩, fun _ => hf⟩
      exact .inl ⟨v, t, t.flags, hw, hkept, rfl⟩
    · exact .inr ⟨e, ht⟩
  · exact .inr he

/-- The nine lines of MOV and the ALU write one operand, and of the flags CF and OF only in ADD and SUB. -/
theorem exec_aluEffect {dst src : Operand} {i : Instr} {s t : State}
    (hi : i ∈ [Instr.mov dst src, .add dst src, .sub dst src, .mul dst src, .div dst src, .and dst src, .or dst src,
      .xor dst src, .not dst]) (h : exec i s = .next t) : AluEffect dst src i s t := by
  simp only [List.mem_cons, List.not_mem_nil, or_false] at hi
  rcases hi with rfl | rfl | rfl | rfl | rfl | rfl | rfl | rfl | rfl
  · exact execMov_effect h
  · exact aluLine2_effect (fun a b => ⟨rfl, rfl, rfl, fun h _ => absurd rfl h, nofun⟩) h
  · exact aluLine2_effect (fun a b => ⟨rfl, rfl, rfl, fun _ h => absurd rfl h, nofun⟩) h
  · exact aluLine2_effect (fun a b => ⟨rfl, rfl, rfl, fun _ _ => ⟨rfl, rfl⟩, nofun⟩) h
  · exact aluLine2_effect (fun a b => ⟨rfl, rfl, rfl, fun _ _ => ⟨rfl, rfl⟩, nofun⟩) h
  · exact aluLine2_effect (fun a b => ⟨rfl, rfl, rfl, fun _ _ => ⟨rfl, rfl⟩, nofun⟩) h
  · exact aluLine2_effect (fun a b => ⟨rfl, rfl, rfl, fun _ _ => ⟨rfl, rfl⟩, nofun⟩) h
  · exact aluLine2_effect (fun a b => ⟨rfl, rfl, rfl, fun _ _ => ⟨rfl, rfl⟩, nofun⟩) h
  · exact aluLine1_effect (fun a => ⟨rfl, rfl, rfl, fun _ _ => ⟨rfl, rfl⟩, nofun⟩) h

/-! ## The Call Stack and control -/

section
variable {o : Operand} {s t : State}

theorem exec_push_cases (h : exec (.push o) s = .next t) : (∃ v, t = s.push v) ∨ ∃ e, t = s.raise e := by
  rcases commit_bind_cases h with ⟨v, -, h⟩ | he
  · exact .inl ⟨v, commit_ok_eq h⟩
  · exact .inr he

theorem exec_pop_cases (h : exec (.pop o) s = .next t) :
    (∃ d, t = s.emit d) ∨ (∃ v, writeOp o v s.dropTop = .ok t) ∨ ∃ e, t = s.raise e := by
  simp only [exec, execPop] at h
  split at h
  · exact .inl ⟨_, (Host.Outcome.next.inj h).symm⟩
  · next v _ =>
    rcases commit_cases h with hw | ⟨e, -, ht⟩
    · exact .inr (.inl ⟨v, hw⟩)
    · exact .inr (.inr ⟨e, ht⟩)

theorem exec_jmp_cases (h : exec (.jmp o) s = .next t) : (∃ v, t = s.jumpTo v) ∨ ∃ e, t = s.raise e := by
  rcases commit_bind_cases h with ⟨v, -, h⟩ | he
  · exact .inl ⟨v, commit_ok_eq h⟩
  · exact .inr he

theorem exec_call_cases (h : exec (.call o) s = .next t) :
    (∃ v, t = (s.push (s.getReg .IP + 1)).jumpTo v) ∨ ∃ e, t = s.raise e := by
  rcases commit_bind_cases h with ⟨v, -, h⟩ | he
  · exact .inl ⟨v, commit_ok_eq h⟩
  · exact .inr he

theorem exec_ret_cases (h : exec .ret s = .next t) : (∃ d, t = s.emit d) ∨ ∃ v, t = s.dropTop.setReg .IP v := by
  simp only [exec, execRet] at h
  split at h
  · exact .inl ⟨_, (Host.Outcome.next.inj h).symm⟩
  · exact .inr ⟨_, (Host.Outcome.next.inj h).symm⟩

/-! ## The string instructions -/

theorem exec_movsb_cases (h : exec .movsb s = .next t) :
    (∃ b u, s.memWrite1 s.diAddr b = .ok u ∧ t = u.stepPointers 1) ∨ ∃ e, t = s.raise e := by
  simp only [exec, execMovsb] at h
  rcases commit_two_cases h with ⟨b, u, -, hu, ht⟩ | he
  · exact .inl ⟨b, u, hu, ht⟩
  · exact .inr he

theorem exec_movsw_cases (h : exec .movsw s = .next t) :
    (∃ v u, s.memWrite2 s.diAddr v = .ok u ∧ t = u.stepPointers 2) ∨ ∃ e, t = s.raise e := by
  simp only [exec, execMovsw] at h
  rcases commit_two_cases h with ⟨v, u, -, hu, ht⟩ | he
  · exact .inl ⟨v, u, hu, ht⟩
  · exact .inr he

theorem exec_cmpsb_cases (h : exec .cmpsb s = .next t) :
    (∃ a b w, t = (s.compare a b).stepPointers w) ∨ ∃ e, t = s.raise e := by
  simp only [exec, execCmpsb] at h
  rcases commit_two_cases h with ⟨a, b, -, -, ht⟩ | he
  · exact .inl ⟨_, _, _, ht⟩
  · exact .inr he

theorem exec_cmpsw_cases (h : exec .cmpsw s = .next t) :
    (∃ a b w, t = (s.compare a b).stepPointers w) ∨ ∃ e, t = s.raise e := by
  simp only [exec, execCmpsw] at h
  rcases commit_two_cases h with ⟨a, b, -, -, ht⟩ | he
  · exact .inl ⟨_, _, _, ht⟩
  · exact .inr he

end

end Sys2Proof.Machine
end

section
/-! SUPPORT. The invariant of the machine's data (10_state.md): what each shared update of the state keeps of it, and the
obligations that every run starts in it, and that every instruction, every step and every operation of the host keeps it. -/

namespace Sys2Proof.Machine

/-- The fields the invariant does not speak of may take any value. -/
theorem State.Inv.frame {s : State} (h : s.Inv) {regs : Regs} {status : Status} {segment : Segment}
    {cstack : List Word} {devices : Devices} {ppi : Ppi} {diags : List Diag} :
    State.Inv { s with regs, status, segment, cstack, devices, ppi, diags } := { h with }

theorem State.Inv.setFlags {s : State} (h : s.Inv) {f : Flags} (hp : f.PF = s.flags.PF) (hd : f.DF = s.flags.DF)
    (hi : f.IF = s.flags.IF) : (s.setFlags f).Inv :=
  { h with pf := hp.trans h.pf, df := hd.trans h.df, ifl := hi.trans h.ifl }

theorem State.Inv.compare {s : State} (h : s.Inv) (a b : Word) : (s.compare a b).Inv := h.setFlags rfl rfl rfl

theorem State.Inv.memWrite1 {s t : State} (h : s.Inv) {a : Int} {b : Byte} (hw : s.memWrite1 a b = .ok t) : t.Inv := by
  have hm := State.memWrite1_wf hw h.memory
  obtain ⟨-, rfl⟩ := State.memWrite1_ok hw
  exact { h with memory := hm }

theorem State.Inv.memWrite2 {s t : State} (h : s.Inv) {a : Int} {v : Word} (hw : s.memWrite2 a v = .ok t) : t.Inv := by
  have hm := State.memWrite2_wf hw h.memory
  obtain ⟨-, rfl⟩ := State.memWrite2_ok hw
  exact { h with memory := hm }

theorem State.Inv.insertData {s : State} (h : s.Inv) (k : Token) (v : Word) :
    State.Inv { s with dst := s.dst.insert k v } := { h with dst := Table.insert_wf _ k v h.dst }

theorem State.Inv.writeOp {s t : State} (h : s.Inv) {o : Operand} {v : Word} (hw : writeOp o v s = .ok t) : t.Inv := by
  obtain ⟨d, -, hs⟩ := writeOp_ok hw
  cases d with
  | reg r => obtain rfl := Except.ok.inj hs; exact h.frame
  | label k => obtain rfl := Except.ok.inj hs; exact h.insertData k v
  | memory a => exact h.memWrite2 hs

/-- A running channel has a counter above 0 (R426). -/
def TimerChannel.Counting (ch : TimerChannel) : Prop := ch.running = true → ch.counter ≠ 0

theorem TimerChannel.counting_configure (mode : Int) (n : Word) (ch : TimerChannel) :
    (ch.configure mode n).Counting := nofun

theorem TimerChannel.counting_stop (ch : TimerChannel) : ch.stop.Counting := nofun

theorem TimerChannel.Counting.start {ch : TimerChannel} (h : ch.Counting) : ch.start.Counting := by
  unfold TimerChannel.start
  split
  · exact h
  · next hc => exact fun _ => hc

theorem TimerChannel.Counting.tick {ch : TimerChannel} (h : ch.Counting) : ch.tick.Counting := by
  unfold TimerChannel.tick
  split
  · exact fun hr => of_decide_eq_true hr
  · exact h

theorem State.Inv.onChannel {s : State} (h : s.Inv) {f : TimerChannel → TimerChannel}
    (hf : ∀ ch : TimerChannel, ch.Counting → (f ch).Counting) (c : Int) : (onChannel c f s).Inv := by
  rcases onChannel_cases c f s with ⟨-, ht⟩ | ⟨-, ht⟩
  · rw [ht]
    exact { h with
      channel := (updateAt_length f c.toNat s.timers).trans h.channel
      counting := updateAt_forall hf c.toNat s.timers h.counting }
  · rw [ht]
    exact h.frame

theorem State.Inv.timerConfigure {s : State} (h : s.Inv) (c mode : Int) (n : Word) : (timerConfigure c mode n s).Inv :=
  h.onChannel (fun ch _ => ch.counting_configure mode n) c

theorem State.Inv.timerStart {s : State} (h : s.Inv) (c : Int) : (timerStart c s).Inv :=
  h.onChannel (fun _ hc => hc.start) c

theorem State.Inv.timerStop {s : State} (h : s.Inv) (c : Int) : (timerStop c s).Inv :=
  h.onChannel (fun ch _ => ch.counting_stop) c

theorem State.Inv.timerTick {s : State} (h : s.Inv) (c : Int) : (timerTick c s).Inv :=
  h.onChannel (fun _ hc => hc.tick) c

theorem State.Inv.ppiSetAddress {s : State} (h : s.Inv) (a1 a0 : Int) : (ppiSetAddress a1 a0 s).Inv := by
  unfold Machine.ppiSetAddress
  split <;> exact h.frame

theorem State.Inv.ppiSetLines {s : State} (h : s.Inv) (rd wr cs : Bool) : (ppiSetLines rd wr cs s).Inv := h.frame

theorem State.Inv.ppiWrite {s : State} (h : s.Inv) (b : Byte) : (ppiWrite b s).Inv := by
  unfold Machine.ppiWrite
  split <;> exact h.frame

theorem State.Inv.ppiRead {s : State} (h : s.Inv) : (ppiRead s).Inv := by
  unfold Machine.ppiRead
  split <;> exact h.frame

theorem State.Inv.writeRegister {s : State} (h : s.Inv) (a : Int × Int) (b : Byte) : (writeRegister a b s).Inv :=
  ((h.ppiSetAddress _ _).ppiSetLines _ _ _).ppiWrite b

theorem State.Inv.readRegister {s : State} (h : s.Inv) (a : Int × Int) : (readRegister a s).Inv :=
  ((h.ppiSetAddress _ _).ppiSetLines _ _ _).ppiRead

theorem State.Inv.aluEffect {dst src : Operand} {i : Instr} {s t : State} (h : s.Inv)
    (ht : AluEffect dst src i s t) : t.Inv := by
  rcases ht with ⟨v, u, f, hw, hf, rfl⟩ | ⟨e, rfl⟩
  · obtain ⟨-, -, -, hu, -⟩ := writeOp_frame hw
    rw [← hu] at hf
    exact (h.writeOp hw).setFlags hf.parity hf.direction hf.interrupt
  · exact h.frame

/-- Every instruction keeps the invariant. -/
theorem State.Inv.exec {i : Instr} {s t : State} (hs : s.Inv) (h : exec i s = .next t) : t.Inv := by
  cases i with
  | mov dst src => exact hs.aluEffect (exec_aluEffect (dst := dst) (src := src) (by simp) h)
  | add dst src => exact hs.aluEffect (exec_aluEffect (dst := dst) (src := src) (by simp) h)
  | sub dst src => exact hs.aluEffect (exec_aluEffect (dst := dst) (src := src) (by simp) h)
  | mul dst src => exact hs.aluEffect (exec_aluEffect (dst := dst) (src := src) (by simp) h)
  | div dst src => exact hs.aluEffect (exec_aluEffect (dst := dst) (src := src) (by simp) h)
  | and dst src => exact hs.aluEffect (exec_aluEffect (dst := dst) (src := src) (by simp) h)
  | or dst src => exact hs.aluEffect (exec_aluEffect (dst := dst) (src := src) (by simp) h)
  | xor dst src => exact hs.aluEffect (exec_aluEffect (dst := dst) (src := src) (by simp) h)
  | not dst => exact hs.aluEffect (exec_aluEffect (dst := dst) (src := dst) (by simp) h)
  | push src => rcases exec_push_cases h with ⟨v, rfl⟩ | ⟨e, rfl⟩ <;> exact hs.frame
  | pop dst =>
    rcases exec_pop_cases h with ⟨d, rfl⟩ | ⟨v, hw⟩ | ⟨e, rfl⟩
    · exact hs.frame
    · exact State.Inv.writeOp (s := s.dropTop) hs.frame hw
    · exact hs.frame
  | jmp tgt => rcases exec_jmp_cases h with ⟨v, rfl⟩ | ⟨e, rfl⟩ <;> exact hs.frame
  | call tgt => rcases exec_call_cases h with ⟨v, rfl⟩ | ⟨e, rfl⟩ <;> exact hs.frame
  | ret => rcases exec_ret_cases h with ⟨d, rfl⟩ | ⟨v, rfl⟩ <;> exact hs.frame
  | movsb =>
    rcases exec_movsb_cases h with ⟨b, u, hw, rfl⟩ | ⟨e, rfl⟩
    · exact (hs.memWrite1 hw).frame
    · exact hs.frame
  | movsw =>
    rcases exec_movsw_cases h with ⟨v, u, hw, rfl⟩ | ⟨e, rfl⟩
    · exact (hs.memWrite2 hw).frame
    · exact hs.frame
  | cmpsb =>
    rcases exec_cmpsb_cases h with ⟨a, b, w, rfl⟩ | ⟨e, rfl⟩
    · exact (hs.compare a b).frame
    · exact hs.frame
  | cmpsw =>
    rcases exec_cmpsw_cases h with ⟨a, b, w, rfl⟩ | ⟨e, rfl⟩
    · exact (hs.compare a b).frame
    · exact hs.frame
  | stc => obtain rfl := Host.Outcome.next.inj h; exact hs.setFlags rfl rfl rfl
  | clc => obtain rfl := Host.Outcome.next.inj h; exact hs.setFlags rfl rfl rfl
  | db l v => obtain rfl := Host.Outcome.next.inj h; exact hs.insertData l (u16 v)
  | dw l v => obtain rfl := Host.Outcome.next.inj h; exact hs.insertData l (u16 v)
  | dd l v => obtain rfl := Host.Outcome.next.inj h; exact hs.insertData l (u16 v)
  | proc n =>
    obtain rfl := Host.Outcome.next.inj h
    exact { hs with procs := Table.insert_wf _ n _ hs.procs }
  | label n =>
    obtain rfl := Host.Outcome.next.inj h
    exact { hs with labels := Table.insert_wf _ n _ hs.labels }
  | voice arg => obtain rfl := Host.Outcome.next.inj h; cases arg <;> exact hs.frame
  | status arg => cases arg <;> obtain rfl := Host.Outcome.next.inj h <;> exact hs.frame
  | configTimer mode n => obtain rfl := Host.Outcome.next.inj h; exact hs.timerConfigure 0 mode n
  | startTimer => obtain rfl := Host.Outcome.next.inj h; exact hs.timerStart 0
  | stopTimer => obtain rfl := Host.Outcome.next.inj h; exact hs.timerStop 0
  | tickTimer => obtain rfl := Host.Outcome.next.inj h; exact (hs.timerTick 0).frame
  | writeCtrl b => obtain rfl := Host.Outcome.next.inj h; exact hs.writeRegister _ b
  | writePort arg b =>
    cases arg <;> obtain rfl := Host.Outcome.next.inj h
    · exact hs.writeRegister _ b
    · exact hs.frame
  | readPort arg =>
    cases arg <;> obtain rfl := Host.Outcome.next.inj h
    · exact hs.readRegister _
    · exact hs.frame
  | _ => obtain rfl := Host.Outcome.next.inj h; exact hs.frame

theorem State.Inv.retire {s : State} (h : s.Inv) : s.retire.Inv := by
  unfold State.retire
  split
  · exact h
  · exact h.frame

/-- A step either changes the status alone, or is an instruction with the loop's work after it (R39, R141, R250). -/
theorem step_cases {s t : State} (h : step s = .next t) :
    (∃ status, t = { s with status }) ∨ ∃ i u, exec i s = .next u ∧ t = u.retire := by
  unfold step at h
  split at h
  · split at h
    · exact .inl ⟨_, (Host.Outcome.next.inj h).symm⟩
    · split at h
      · next i _ =>
        obtain ⟨u, hu⟩ := exec_next i s
        rw [hu] at h
        exact .inr ⟨i, u, hu, (Host.Outcome.next.inj h).symm⟩
      · exact .inl ⟨_, (Host.Outcome.next.inj h).symm⟩
  all_goals exact .inl ⟨s.status, (Host.Outcome.next.inj h).symm⟩

/-- Settles O4: a step runs an instruction, which keeps the invariant, or changes the status alone. -/
theorem stepKeepsInvariant : Obligations.StepKeepsInvariant := by
  intro s t hs h
  rcases step_cases h with ⟨status, rfl⟩ | ⟨i, u, hu, rfl⟩
  · exact hs.frame
  · exact (hs.exec hu).retire

/-! ## The start of a run -/

theorem PicSystem.reset_ordered (c : Config.PicCascade) : (PicSystem.reset c).Ordered := by
  cases c with
  | single => exact List.Perm.refl _
  | masterSlave => exact ⟨List.Perm.refl _, List.Perm.refl _⟩

theorem PicSystem.reset_cascade (c : Config.PicCascade) : (PicSystem.reset c).cascade = c := by
  cases c with
  | single => rfl
  | masterSlave => rfl

theorem State.launch_inv {p : List Line} (hp : p.length ≤ 65536) : (State.launch p).Inv where
  memory := rfl
  dst := rfl
  labels := rfl
  procs := rfl
  pf := rfl
  df := rfl
  ifl := rfl
  channel := by simp [State.reset, Config.timerChannels]
  counting := by
    intro ch hch
    have hreset : ch = TimerChannel.reset := by
      simpa [State.reset, List.mem_replicate, or_iff_left_of_imp And.right] using hch
    rw [hreset]
    nofun
  priority := PicSystem.reset_ordered _
  cascade := PicSystem.reset_cascade _
  length := hp

/-- Settles O5: the reset state is the launch of the empty program. -/
theorem resetMeetsInvariant : Obligations.ResetMeetsInvariant :=
  ⟨State.launch_inv (p := []) (by simp), fun _ => State.launch_inv⟩

/-! ## The host's operations on the controllers -/

theorem withIrq_keeps {α : Type} {P : α → Prop} {f : Fin 8 → α → α} (hf : ∀ k x, P x → P (f k x)) (k : Int) {x : α}
    (h : P x) : P (withIrq k f x).1 := by
  unfold withIrq
  split
  · exact hf _ x h
  · exact h

theorem Pic.Ordered.rotate {p : Pic} (h : p.Ordered) : p.rotate.Ordered :=
  List.perm_append_comm.trans ((List.take_append_drop 1 p.prio).symm ▸ h)

theorem Pic.Ordered.apply {p : Pic} (h : p.Ordered) (op : PicOp) : (p.apply op).1.Ordered := by
  cases op with
  | request k => exact withIrq_keeps (P := Pic.Ordered) (f := Pic.requestIrq) (fun _ _ hx => hx) k h
  | mask k => exact withIrq_keeps (P := Pic.Ordered) (f := Pic.maskIrq) (fun _ _ hx => hx) k h
  | unmask k => exact withIrq_keeps (P := Pic.Ordered) (f := Pic.unmaskIrq) (fun _ _ hx => hx) k h
  | check => exact h
  | acknowledge k => exact withIrq_keeps (P := Pic.Ordered) (f := Pic.acknowledgeIrq) (fun _ _ hx => hx) k h
  | endOfInterrupt k => exact withIrq_keeps (P := Pic.Ordered) (f := Pic.endIrq) (fun _ _ hx => hx) k h
  | rotatePriority => exact h.rotate

/-- Both controllers of a pair have a legal priority order (R48). -/
def PicPair.Ordered (q : PicPair) : Prop := q.master.Ordered ∧ q.slave.Ordered

theorem PicPair.Ordered.requestIrq (k : Fin 8) (q : PicPair) (h : q.Ordered) : (q.requestIrq k).Ordered := by
  unfold PicPair.requestIrq
  split <;> exact h

theorem PicPair.Ordered.acknowledgeIrq (k : Fin 8) (q : PicPair) (h : q.Ordered) : (q.acknowledgeIrq k).Ordered := by
  unfold PicPair.acknowledgeIrq
  split <;> exact h

theorem PicPair.Ordered.applyMaster {q : PicPair} (h : q.Ordered) (op : PicOp) : (q.applyMaster op).1.Ordered := by
  cases op with
  | request k => exact withIrq_keeps PicPair.Ordered.requestIrq k h
  | acknowledge k => exact withIrq_keeps PicPair.Ordered.acknowledgeIrq k h
  | mask k => exact ⟨h.1.apply (.mask k), h.2⟩
  | unmask k => exact ⟨h.1.apply (.unmask k), h.2⟩
  | check => exact h
  | endOfInterrupt k => exact ⟨h.1.apply (.endOfInterrupt k), h.2⟩
  | rotatePriority => exact ⟨h.1.rotate, h.2⟩

theorem PicSystem.Ordered.apply {x : PicSystem} (h : x.Ordered) (which : PicId) (op : PicOp) :
    (x.apply which op).1.Ordered := by
  cases x with
  | single c =>
    cases which with
    | master => exact Pic.Ordered.apply (p := c) h op
    | slave => exact h
  | masterSlave q =>
    cases which with
    | master => exact PicPair.Ordered.applyMaster (q := q) h op
    | slave => exact ⟨h.1, Pic.Ordered.apply h.2 op⟩

theorem PicSystem.apply_cascade (x : PicSystem) (which : PicId) (op : PicOp) :
    (x.apply which op).1.cascade = x.cascade := by
  cases x <;> cases which <;> rfl

theorem State.Inv.withPic {s : State} (h : s.Inv) {x : PicSystem} (ho : x.Ordered) (hc : x.cascade = s.pic.cascade) :
    State.Inv { s with pic := x } := { h with priority := ho, cascade := hc.trans h.cascade }

/-- Settles O6: each operation changes one device, within the invariant of that device. -/
theorem hostOperationKeepsInvariant : Obligations.HostOperationKeepsInvariant := by
  intro op s t a hs h
  cases op with
  | timerConfigure c mode n => cases h; exact hs.timerConfigure c mode n
  | timerStart c => cases h; exact hs.timerStart c
  | timerStop c => cases h; exact hs.timerStop c
  | timerTick c => cases h; exact hs.timerTick c
  | ppiSetAddress a1 a0 => cases h; exact hs.ppiSetAddress a1 a0
  | ppiSetLines rd wr cs => cases h; exact hs.ppiSetLines rd wr cs
  | ppiWrite b => cases h; exact hs.ppiWrite b
  | ppiRead => cases h; exact hs.ppiRead
  | ppiGetData => cases h; exact hs
  | ppiConfigurePorts => cases h; exact hs.frame
  | pic which op =>
    simp only [hostOp] at h
    split at h
    · cases h
    · cases h
      exact (hs.withPic (hs.priority.apply which op) (s.pic.apply_cascade which op)).frame

end Sys2Proof.Machine
end

section
/-! SUPPORT. The round trip of the text (30_encoding.md): the tokens of an encoded line are those the encoder wrote (R101,
R143), a literal reads as the number it was written from (R105, R106), and each instruction decodes from its own tokens. -/

namespace Sys2Proof.Machine

/-! ## The tokens of an encoded line (R101, R143) -/

theorem isTokenChar_iff {c : Char} : isTokenChar c = true ↔ isSpace c = false ∧ c ≠ ';' := by
  simp [isTokenChar]

theorem isToken_iff {t : Token} : isToken t = true ↔ t ≠ [] ∧ ∀ c ∈ t, isTokenChar c = true := by
  simp [isToken]

theorem stripComment_of_no_semicolon {l : Line} (h : ∀ c ∈ l, c ≠ ';') : stripComment l = l := by
  induction l with
  | nil => rfl
  | cons c l ih =>
    obtain ⟨hc, hl⟩ := List.forall_mem_cons.mp h
    rw [stripComment, if_neg hc, ih hl]

theorem joinTokens_no_semicolon {ts : List Token} (h : ∀ t ∈ ts, isToken t = true) : ∀ c ∈ joinTokens ts, c ≠ ';' := by
  have htok {t : Token} (ht : isToken t = true) : ∀ c ∈ t, c ≠ ';' := fun c hc =>
    (isTokenChar_iff.mp ((isToken_iff.mp ht).2 c hc)).2
  induction ts with
  | nil => simp [joinTokens]
  | cons t ts ih =>
    obtain ⟨ht, hts⟩ := List.forall_mem_cons.mp h
    cases ts with
    | nil => exact htok ht
    | cons u us =>
      rw [joinTokens, List.forall_mem_append, List.forall_mem_cons]
      · exact ⟨htok ht, by decide, ih hts⟩
      · exact nofun

/-- The characters of a token join the run being read. -/
theorem splitTokens_append {t : Token} (ht : ∀ c ∈ t, isTokenChar c = true) (l : List Char) (cur : Token) :
    splitTokens (t ++ l) cur = splitTokens l (cur ++ t) := by
  induction t generalizing cur with
  | nil => simp
  | cons c t ih =>
    obtain ⟨hc, ht⟩ := List.forall_mem_cons.mp ht
    simp [splitTokens, (isTokenChar_iff.mp hc).1, ih ht]

theorem splitTokens_space (l : List Char) {cur : Token} (h : cur ≠ []) :
    splitTokens (' ' :: l) cur = cur :: splitTokens l [] := by
  have hspace : isSpace ' ' = true := by decide
  simp [splitTokens, hspace, h]

theorem splitTokens_joinTokens {ts : List Token} (h : ∀ t ∈ ts, isToken t = true) :
    splitTokens (joinTokens ts) [] = ts := by
  induction ts with
  | nil => rfl
  | cons t ts ih =>
    obtain ⟨ht, hts⟩ := List.forall_mem_cons.mp h
    obtain ⟨hne, hchars⟩ := isToken_iff.mp ht
    cases ts with
    | nil =>
      calc splitTokens t [] = splitTokens (t ++ []) [] := by rw [List.append_nil]
        _ = splitTokens [] t := splitTokens_append hchars [] []
        _ = [t] := by rw [splitTokens, if_neg hne]
    | cons u us =>
      calc splitTokens (t ++ ' ' :: joinTokens (u :: us)) []
        _ = splitTokens (' ' :: joinTokens (u :: us)) t := splitTokens_append hchars _ []
        _ = t :: splitTokens (joinTokens (u :: us)) [] := splitTokens_space _ hne
        _ = t :: u :: us := by rw [ih hts]

theorem tokenize_joinTokens {ts : List Token} (h : ∀ t ∈ ts, isToken t = true) : tokenize (joinTokens ts) = ts := by
  rw [tokenize, stripComment_of_no_semicolon (joinTokens_no_semicolon h), splitTokens_joinTokens h]

theorem encodeTokens_statement (i : Instr) : Laws.EncodeTokens.Statement i := by
  cases i with
  | mov dst src => exact Laws.EncodeTokens.mov dst src
  | add dst src => exact Laws.EncodeTokens.add dst src
  | sub dst src => exact Laws.EncodeTokens.sub dst src
  | mul dst src => exact Laws.EncodeTokens.mul dst src
  | div dst src => exact Laws.EncodeTokens.div dst src
  | and dst src => exact Laws.EncodeTokens.and dst src
  | or dst src => exact Laws.EncodeTokens.or dst src
  | xor dst src => exact Laws.EncodeTokens.xor dst src
  | not dst => exact Laws.EncodeTokens.not dst
  | push src => exact Laws.EncodeTokens.push src
  | pop dst => exact Laws.EncodeTokens.pop dst
  | jmp tgt => exact Laws.EncodeTokens.jmp tgt
  | call tgt => exact Laws.EncodeTokens.call tgt
  | ret => exact Laws.EncodeTokens.ret
  | hlt => exact Laws.EncodeTokens.hlt
  | movsb => exact Laws.EncodeTokens.movsb
  | movsw => exact Laws.EncodeTokens.movsw
  | cmpsb => exact Laws.EncodeTokens.cmpsb
  | cmpsw => exact Laws.EncodeTokens.cmpsw
  | stc => exact Laws.EncodeTokens.stc
  | clc => exact Laws.EncodeTokens.clc
  | dotCode => exact Laws.EncodeTokens.dotCode
  | dotData => exact Laws.EncodeTokens.dotData
  | dotStack => exact Laws.EncodeTokens.dotStack
  | db label value => exact Laws.EncodeTokens.db label value
  | dw label value => exact Laws.EncodeTokens.dw label value
  | dd label value => exact Laws.EncodeTokens.dd label value
  | proc name => exact Laws.EncodeTokens.proc name
  | endp => exact Laws.EncodeTokens.endp
  | voice code => exact Laws.EncodeTokens.voice code
  | status dev => exact Laws.EncodeTokens.status dev
  | configTimer mode value => exact Laws.EncodeTokens.configTimer mode value
  | startTimer => exact Laws.EncodeTokens.startTimer
  | stopTimer => exact Laws.EncodeTokens.stopTimer
  | tickTimer => exact Laws.EncodeTokens.tickTimer
  | writeCtrl b => exact Laws.EncodeTokens.writeCtrl b
  | writePort port b => exact Laws.EncodeTokens.writePort port b
  | readPort port => exact Laws.EncodeTokens.readPort port
  | label name => exact Laws.EncodeTokens.label name
  | empty => exact Laws.EncodeTokens.empty
  | unknown tok => exact Laws.EncodeTokens.unknown tok

theorem tokenize_encode {i : Instr} (h : i.wf = true) : tokenize (encode i) = encodeTokens i :=
  tokenize_joinTokens (List.all_eq_true.mp (encodeTokens_statement i h))

/-! ## Literals (R105, R106) -/

theorem digitsFrom?_append (acc : Nat) (xs ys : List Char) :
    digitsFrom? acc (xs ++ ys) = (digitsFrom? acc xs).bind (digitsFrom? · ys) := by
  induction xs generalizing acc with
  | nil => rfl
  | cons c xs ih =>
    rw [List.cons_append, digitsFrom?, digitsFrom?]
    cases digitValue? c with
    | none => rfl
    | some d => exact ih _

theorem digitsFrom?_digitChar (acc : Nat) {d : Nat} (h : d < 10) : digitsFrom? acc [digitChar d] = some (acc * 10 + d) := by
  simp [digitsFrom?, digitValue?_digitChar d h]

/-- The digits written for a number no larger than the fuel read as that number. -/
theorem digitsFrom?_decimalDigits {fuel n : Nat} (h : n ≤ fuel) : digitsFrom? 0 (decimalDigits fuel n) = some n := by
  induction fuel generalizing n with
  | zero =>
    rw [decimalDigits, digitsFrom?_digitChar 0 (by omega)]
    congr 1
    omega
  | succ fuel ih =>
    rw [decimalDigits]
    split_ifs with hn
    · rw [digitsFrom?_digitChar 0 hn, Nat.zero_mul, Nat.zero_add]
    · rw [digitsFrom?_append, ih (by omega), Option.bind_some, digitsFrom?_digitChar _ (by omega)]
      congr 1
      omega

theorem digits?_natToken (n : Nat) : digits? (natToken n) = some n := by
  rw [digits?, natToken, if_neg (decimalDigits_ne_nil n n)]
  exact digitsFrom?_decimalDigits (Nat.le_refl n)

/-- A run of digits is a decimal literal: neither sign is a digit. -/
theorem decimal?_of_digits {t : Token} {n : Nat} (h : digits? t = some n) : decimal? t = some (n : Int) := by
  cases t with
  | nil => simp [digits?] at h
  | cons c cs =>
    have hsign {x : Char} (hx : digitValue? x = none) : c ≠ x := by
      rintro rfl
      simp [digits?, digitsFrom?, hx] at h
    rw [decimal?, if_neg (hsign (by decide)), if_neg (hsign (by decide)), h]
    rfl

theorem decimal?_natToken (n : Nat) : decimal? (natToken n) = some (n : Int) := decimal?_of_digits (digits?_natToken n)

theorem decimal?_intToken (v : Int) : decimal? (intToken v) = some v := by
  cases v with
  | ofNat n => exact decimal?_natToken n
  | negSucc n =>
    rw [intToken, decimal?, if_neg (by decide), if_pos rfl, digits?_natToken]
    rfl

/-- The low digit of a byte is no `x`, so that its two digits are not taken for the start of `0x`. -/
theorem hexChar_ne_x {d : Nat} (h : d < 16) : hexChar d ≠ 'x' ∧ hexChar d ≠ 'X' := by
  have hall : ∀ d : Fin 16, hexChar d.val ≠ 'x' ∧ hexChar d.val ≠ 'X' := by decide
  exact hall ⟨d, h⟩

theorem hexByte?_byteToken (b : Byte) : hexByte? (byteToken b) = some b := by
  have hb := b.isLt
  obtain ⟨hx, hX⟩ := hexChar_ne_x (d := b.toNat % 16) (by omega)
  simp only [hexByte?, byteToken, hx, hX, or_self, and_false, if_false, hexDigits?,
    hexDigitValue?_hexChar (b.toNat / 16) (by omega), hexDigitValue?_hexChar (b.toNat % 16) (by omega)]
  rw [Nat.div_add_mod, BitVec.ofNat_toNat, BitVec.setWidth_eq]

/-! ## Operand classes (R104) -/

theorem operandOf_tok {o : Operand} (h : o.wf = true) : operandOf o.tok = o := by
  simp only [Operand.wf, Bool.and_eq_true, decide_eq_true_eq] at h
  rw [operandOf, ← h.2]

theorem voiceArgOf_token {c : VoiceArg} (h : c.wf = true) : voiceArgOf c.token = c := by
  cases c with
  | code c => simp [voiceArgOf, VoiceArg.token, voiceCode?_text]
  | unknown t =>
    simp only [VoiceArg.wf, Bool.and_eq_true, Option.isNone_iff_eq_none] at h
    simp [voiceArgOf, VoiceArg.token, h.2]

theorem deviceArgOf_token {d : DeviceArg} (h : d.wf = true) : deviceArgOf d.token = d := by
  cases d with
  | device d => simp [deviceArgOf, DeviceArg.token, deviceName?_text]
  | unknown t =>
    simp only [DeviceArg.wf, Bool.and_eq_true, Option.isNone_iff_eq_none] at h
    simp [deviceArgOf, DeviceArg.token, h.2]

theorem portArgOf_token {p : PortArg} (h : p.wf = true) : portArgOf p.token = p := by
  cases p with
  | port p => simp [portArgOf, PortArg.token, portName?_text]
  | unknown t =>
    simp only [PortArg.wf, Bool.and_eq_true, Option.isNone_iff_eq_none] at h
    simp [portArgOf, PortArg.token, h.2]

/-! ## Each instruction decodes from its own tokens -/

section
variable {m : Mnemonic}

/-- The mnemonics of format F0, and the three markers, meet `hm` by `rfl`. -/
theorem decodeTokens_noOperand {i : Instr} (hm : decodeOperands m [] = .ok i) : decodeTokens [m.text] = .ok i := by
  rw [decodeTokens_mnemonic, hm]

theorem decodeTokens_oneOperand {mk : Operand → Instr} (hm : ∀ a, decodeOperands m [a] = .ok (mk (operandOf a)))
    {o : Operand} (h : o.wf = true) : decodeTokens [m.text, o.tok] = .ok (mk o) := by
  rw [decodeTokens_mnemonic, hm, operandOf_tok h]

theorem decodeTokens_twoOperands {mk : Operand → Operand → Instr}
    (hm : ∀ a b, decodeOperands m [a, b] = .ok (mk (operandOf a) (operandOf b))) {dst src : Operand}
    (h : (dst.wf && src.wf) = true) : decodeTokens [m.text, dst.tok, src.tok] = .ok (mk dst src) := by
  rw [Bool.and_eq_true] at h
  rw [decodeTokens_mnemonic, hm, operandOf_tok h.1, operandOf_tok h.2]

theorem decodeTokens_data {mk : Token → Int → Instr} (hm : ∀ a b, decodeOperands m [a, b] = decodeData m mk a b)
    (l : Token) (v : Int) : decodeTokens [m.text, l, intToken v] = .ok (mk l v) := by
  rw [decodeTokens_mnemonic, hm, decodeData, decimal?_intToken]

end

theorem decodeConfigTimer_tokens (mode : Int) (value : Word) :
    decodeConfigTimer (intToken mode) (natToken value.toNat) = .ok (.configTimer mode value) := by
  have hv := value.isLt
  simp only [decodeConfigTimer, decimal?_intToken, decimal?_natToken]
  rw [if_pos (by omega), BitVec.ofInt_natCast, BitVec.ofNat_toNat, BitVec.setWidth_eq]

theorem decodeTokens_label (n : Token) (ops : List Token) : decodeTokens ((n ++ [':']) :: ops) = .ok (.label n) := by
  simp [decodeTokens, endsWithColon]

theorem decodeTokens_encodeTokens {i : Instr} (h : i.wf = true) : decodeTokens (encodeTokens i) = .ok i := by
  cases i with
  | mov dst src => exact decodeTokens_twoOperands (m := .mov) (fun _ _ => rfl) h
  | add dst src => exact decodeTokens_twoOperands (m := .add) (fun _ _ => rfl) h
  | sub dst src => exact decodeTokens_twoOperands (m := .sub) (fun _ _ => rfl) h
  | mul dst src => exact decodeTokens_twoOperands (m := .mul) (fun _ _ => rfl) h
  | div dst src => exact decodeTokens_twoOperands (m := .div) (fun _ _ => rfl) h
  | and dst src => exact decodeTokens_twoOperands (m := .and) (fun _ _ => rfl) h
  | or dst src => exact decodeTokens_twoOperands (m := .or) (fun _ _ => rfl) h
  | xor dst src => exact decodeTokens_twoOperands (m := .xor) (fun _ _ => rfl) h
  | not dst => exact decodeTokens_oneOperand (m := .not) (fun _ => rfl) h
  | push src => exact decodeTokens_oneOperand (m := .push) (fun _ => rfl) h
  | pop dst => exact decodeTokens_oneOperand (m := .pop) (fun _ => rfl) h
  | jmp tgt => exact decodeTokens_oneOperand (m := .jmp) (fun _ => rfl) h
  | call tgt => exact decodeTokens_oneOperand (m := .call) (fun _ => rfl) h
  | ret => exact decodeTokens_noOperand (m := .ret) rfl
  | hlt => exact decodeTokens_noOperand (m := .hlt) rfl
  | movsb => exact decodeTokens_noOperand (m := .movsb) rfl
  | movsw => exact decodeTokens_noOperand (m := .movsw) rfl
  | cmpsb => exact decodeTokens_noOperand (m := .cmpsb) rfl
  | cmpsw => exact decodeTokens_noOperand (m := .cmpsw) rfl
  | stc => exact decodeTokens_noOperand (m := .stc) rfl
  | clc => exact decodeTokens_noOperand (m := .clc) rfl
  | dotCode => exact decodeTokens_noOperand (m := .dotCode) rfl
  | dotData => exact decodeTokens_noOperand (m := .dotData) rfl
  | dotStack => exact decodeTokens_noOperand (m := .dotStack) rfl
  | db l v => exact decodeTokens_data (m := .db) (fun _ _ => rfl) l v
  | dw l v => exact decodeTokens_data (m := .dw) (fun _ _ => rfl) l v
  | dd l v => exact decodeTokens_data (m := .dd) (fun _ _ => rfl) l v
  | proc n => exact decodeTokens_mnemonic .proc [n]
  | endp => exact decodeTokens_noOperand (m := .endp) rfl
  | voice c =>
    calc decodeTokens [Mnemonic.voice.text, c.token] = .ok (.voice (voiceArgOf c.token)) := decodeTokens_mnemonic .voice _
      _ = .ok (.voice c) := by rw [voiceArgOf_token h]
  | status d =>
    calc decodeTokens [Mnemonic.status.text, d.token] = .ok (.status (deviceArgOf d.token)) :=
          decodeTokens_mnemonic .status _
      _ = .ok (.status d) := by rw [deviceArgOf_token h]
  | configTimer mode value => exact (decodeTokens_mnemonic .configTimer _).trans (decodeConfigTimer_tokens mode value)
  | startTimer => exact decodeTokens_noOperand (m := .startTimer) rfl
  | stopTimer => exact decodeTokens_noOperand (m := .stopTimer) rfl
  | tickTimer => exact decodeTokens_noOperand (m := .tickTimer) rfl
  | writeCtrl b =>
    calc decodeTokens [Mnemonic.writeCtrl.text, byteToken b] = decodeWriteCtrl (byteToken b) :=
          decodeTokens_mnemonic .writeCtrl _
      _ = .ok (.writeCtrl b) := by rw [decodeWriteCtrl, hexByte?_byteToken]
  | writePort p b =>
    calc decodeTokens [Mnemonic.writePort.text, p.token, byteToken b] = decodeWritePort p.token (byteToken b) :=
          decodeTokens_mnemonic .writePort _
      _ = .ok (.writePort p b) := by rw [decodeWritePort, hexByte?_byteToken, portArgOf_token h]
  | readPort p =>
    calc decodeTokens [Mnemonic.readPort.text, p.token] = .ok (.readPort (portArgOf p.token)) :=
          decodeTokens_mnemonic .readPort _
      _ = .ok (.readPort p) := by rw [portArgOf_token h]
  | label n => exact decodeTokens_label n []
  | empty => rfl
  | unknown t =>
    simp only [Instr.wf, Bool.and_eq_true, Bool.not_eq_true', Option.isNone_iff_eq_none] at h
    obtain ⟨⟨-, hcolon⟩, hname⟩ := h
    exact decodeTokens_unknown hcolon hname []

/-- Settles O15: the line's tokens are those the encoder wrote, and the instruction decodes from them. -/
theorem decodeEncodeRoundTrip : Obligations.DecodeEncodeRoundTrip := by
  intro i h
  rw [decode, tokenize_encode h, decodeTokens_encodeTokens h]

/-! ## Line classes and malformed lines (R102, R141) -/

section
variable {line : Line}

theorem decode_of_empty (h : tokenize line = []) : decode line = .ok .empty := by
  rw [decode, h, decodeTokens]

theorem decode_of_label {t : Token} {ops : List Token} (h : tokenize line = t :: ops) (hcolon : t.getLast? = some ':') :
    decode line = .ok (.label t.dropLast) := by
  have hends : endsWithColon t = true := by rw [endsWithColon, hcolon]; rfl
  rw [decode, h, decodeTokens, if_pos hends]

theorem decode_of_unknown {t : Token} {ops : List Token} (h : tokenize line = t :: ops)
    (hcolon : t.getLast? ≠ some ':') (hname : ∀ m : Mnemonic, m.text ≠ t) : decode line = .ok (.unknown t) := by
  rw [decode, h, decodeTokens_unknown (endsWithColon_eq_false.mpr hcolon) (mnemonic?_eq_none.mpr hname)]

end

/-- Settles O13: each class is read off the first token; a mnemonic is spelled without a colon. -/
theorem linesAreClassified : Obligations.LinesAreClassified := fun _ =>
  ⟨decode_of_empty, fun _ _ => decode_of_label, fun _ _ => decode_of_mnemonic, fun _ _ => decode_of_unknown⟩

theorem formatF2_of_length_ne {m : Mnemonic} {k : Token → Token → Except DecodeReject Instr} {ops : List Token}
    (h : ops.length ≠ 2) : formatF2 m k ops = .error (.tokenCount m) := by
  match ops with
  | [] => rfl
  | [_] => rfl
  | [_, _] => exact absurd rfl h
  | _ :: _ :: _ :: _ => rfl

theorem decodeData_of_notDecimal {m : Mnemonic} {mk : Token → Int → Instr} {l v : Token} (h : decimal? v = none) :
    decodeData m mk l v = .error (.notDecimal m) := by rw [decodeData, h]

theorem decodeConfigTimer_of_notDecimal {a b : Token} (h : decimal? a = none ∨ decimal? b = none) :
    decodeConfigTimer a b = .error (.notDecimal .configTimer) := by
  unfold decodeConfigTimer
  rcases h with h | h
  · rw [h]
  · rw [h]
    cases decimal? a <;> rfl

/-- Settles O14: each mnemonic's format rejects another number of tokens, and each literal is checked by its own reader. -/
theorem malformedLinesRejected : Obligations.MalformedLinesRejected := by
  refine ⟨fun m ops hm hops => ?none, fun m ops hm hlen => ?one, fun m ops hm hlen => ?two, fun m l v hm hv => ?data,
    fun a b h => decodeConfigTimer_of_notDecimal h, fun b hb => ?writeCtrl, fun p b hb => ?writePort,
    fun a b m n ha hb hn => ?range⟩
  case none =>
    have hformat : ∃ i, decodeOperands m ops = formatF0 m i ops := by
      simp only [List.mem_cons, List.not_mem_nil, or_false] at hm
      rcases hm with rfl | rfl | rfl | rfl | rfl | rfl | rfl | rfl | rfl | rfl | rfl <;> exact ⟨_, rfl⟩
    obtain ⟨i, hi⟩ := hformat
    rw [hi, formatF0_eq, if_neg hops]
  case one =>
    have hformat : ∃ k, decodeOperands m ops = formatF1 m k ops := by
      simp only [List.mem_cons, List.not_mem_nil, or_false] at hm
      rcases hm with rfl | rfl | rfl | rfl | rfl | rfl | rfl | rfl | rfl | rfl <;> exact ⟨_, rfl⟩
    obtain ⟨k, hk⟩ := hformat
    rw [hk, formatF1_of_length_ne hlen]
  case two =>
    have hformat : ∃ k, decodeOperands m ops = formatF2 m k ops := by
      simp only [List.mem_cons, List.not_mem_nil, or_false] at hm
      rcases hm with rfl | rfl | rfl | rfl | rfl | rfl | rfl | rfl | rfl | rfl | rfl | rfl | rfl <;> exact ⟨_, rfl⟩
    obtain ⟨k, hk⟩ := hformat
    rw [hk, formatF2_of_length_ne hlen]
  case data =>
    simp only [List.mem_cons, List.not_mem_nil, or_false] at hm
    rcases hm with rfl | rfl | rfl <;> exact decodeData_of_notDecimal hv
  case writeCtrl =>
    show decodeWriteCtrl b = _
    rw [decodeWriteCtrl, hb]
  case writePort =>
    show decodeWritePort p b = _
    rw [decodeWritePort, hb]
  case range =>
    show decodeConfigTimer a b = _
    rw [decodeConfigTimer, ha, hb]
    exact if_neg (by omega)

/-- Settles O12: each line's tokens are of one class of R102, and the operand tokens spell the forms named. -/
theorem familyWordsDecode : Obligations.FamilyWordsDecode := by
  refine ⟨?add, ?pop, ?not, ?movsw, ?dotStack, ?db, ?voice, ?label, ?empty, ?unknown, ?missing⟩
  case add =>
    exact (decode_of_mnemonic (m := .add) (ops := [['[', '1', '6', ']'], ['-', '1']]) (by decide)).trans rfl
  case pop =>
    exact (decode_of_mnemonic (m := .pop) (ops := [['[', 'B', 'X', '+', 'S', 'I', ']']]) (by decide)).trans rfl
  case not =>
    exact (decode_of_mnemonic (m := .not) (ops := [['[', 'I', 'P', '+', '-', '2', ']']]) (by decide)).trans rfl
  case movsw => exact (decode_of_mnemonic (m := .movsw) (ops := []) (by decide)).trans rfl
  case dotStack => exact (decode_of_mnemonic (m := .dotStack) (ops := [['1', '0', '0']]) (by decide)).trans rfl
  case db => exact (decode_of_mnemonic (m := .db) (ops := [['X'], ['3', '0', '0']]) (by decide)).trans rfl
  case voice => exact (decode_of_mnemonic (m := .voice) (ops := [['1', '2']]) (by decide)).trans rfl
  case label => exact decode_of_label (t := ['L', '1', ':']) (ops := [['M', 'O', 'V']]) (by decide) rfl
  case empty => exact decode_of_empty (by decide)
  case unknown =>
    exact decode_of_unknown (t := ['m', 'o', 'v']) (ops := [['A', 'X'], ['5']]) (by decide) (by decide)
      (mnemonic?_eq_none.mp (by decide))
  case missing => exact (decode_of_mnemonic (m := .mov) (ops := [['A', 'X', ',', '5']]) (by decide)).trans rfl

end Sys2Proof.Machine
end

section
/-! SUPPORT. What a step neither reads nor writes (R36, R51, R403, R409, R410), from the replacement of the fields that pass
through it. -/

namespace Sys2Proof.Machine

/-- A replacement that leaves the segment marker alone stands whole after every instruction. -/
theorem Overlay.after_of_segment_id {v : Overlay} (h : v.segment = id) (i : Instr) : v.after i = v := by
  have hmarker : { v with segment := id } = v := by rw [← h]
  cases i with
  | dotCode => exact hmarker
  | dotData => exact hmarker
  | dotStack => exact hmarker
  | _ => rfl

/-- A step passes a replacement that leaves the program and the segment marker alone. -/
theorem step_overlay_next {s t : State} (h : step s = .next t) {v : Overlay} (hp : v.program = id)
    (hs : v.segment = id) : step (s.overlay v) = .next (t.overlay v) := by
  obtain ⟨i, hi⟩ := step_overlay v s (by rw [hp, id])
  rwa [h, Overlay.after_of_segment_id hs] at hi

/-- Settles O9: IF and the controllers pass through every step, and so does what replaces them. -/
theorem noInterruptReachesCpu : Obligations.NoInterruptReachesCpu := fun _ _ b p h =>
  ⟨(step_samePassThrough h).interrupt, (step_samePassThrough h).pic,
    step_overlay_next h (v := { interrupt := fun _ => b, pic := fun _ => p }) rfl rfl⟩

/-- A state is its own with an empty stream, the earlier events put before it. -/
theorem State.overlay_earlier (s : State) (old : List Diag) :
    State.overlay { earlier := old } { s with diags := [] } = { s with diags := old } := by
  simp [State.overlay, Flags.overlay]

/-- Settles O10: the events a step appends are those it emits from the empty stream, whatever stands before them. -/
theorem diagnosticsOutputOnly : Obligations.DiagnosticsOutputOnly := by
  intro s t h
  obtain ⟨u, hu⟩ := step_next { s with diags := [] }
  have hstep (old : List Diag) : step { s with diags := old } = .next (u.overlay { earlier := old }) := by
    rw [← s.overlay_earlier old]
    exact step_overlay_next hu rfl rfl
  obtain rfl : t = u.overlay { earlier := s.diags } := Host.Outcome.next.inj (h.symm.trans (hstep s.diags))
  exact ⟨u.diags, rfl, hstep⟩

end Sys2Proof.Machine
end

section
/-! SUPPORT. The modes of the operand resolver that reach data memory, the modes of `WriteOp`, and `Target` (30_encoding.md,
R120 to R131). -/

namespace Sys2Proof.Machine

section
variable {o : Operand} {s : State}

/-- An operand that is no key reads the word at the address its form gives. -/
theorem readOp_memory {a : Int} (hk : s.dst.find? o.tok = none) (ha : readAddr? s o.form = some a) :
    readOp o s = s.memRead2 a := by
  have h : source? o s = some (.memory a) := by
    unfold source?
    split
    · next hf => simp [hf, readAddr?] at ha
    · next hf => simp [hf, readAddr?] at ha
    · simp only [hk, ha, Option.map_some]
  rw [readOp, h]

theorem dest?_imm {n : Int} (h : o.form = .imm n) : dest? o s = none := by simp [dest?, h]

theorem dest?_reg {r : Reg} (h : o.form = .reg r) : dest? o s = some (.reg r) := by simp [dest?, h]

theorem dest?_key {w : Word} (hi : ∀ n, o.form ≠ .imm n) (hr : ∀ r, o.form ≠ .reg r)
    (hk : s.dst.find? o.tok = some w) : dest? o s = some (.label o.tok) := by
  unfold dest?
  split
  · next n hn => exact absurd hn (hi n)
  · next r hn => exact absurd hn (hr r)
  · rw [hk]

/-- An operand that is no key writes the word at the address its form gives. -/
theorem writeOp_memory {a : Int} {v : Word} (hk : s.dst.find? o.tok = none) (ha : writeAddr? s o.form = some a) :
    writeOp o v s = s.memWrite2 a v := by
  have h : dest? o s = some (.memory a) := by
    unfold dest?
    split
    · next hf => simp [hf, writeAddr?] at ha
    · next hf => simp [hf, writeAddr?] at ha
    · simp only [hk, ha, Option.map_some]
  rw [writeOp_of_dest h, storeAt]

theorem writeOp_of_no_dest {v : Word} (h : dest? o s = none) : writeOp o v s = .error (.addressing (.token o.tok)) := by
  rw [writeOp, h, tokenError]

end

/-- Settles O16: a literal, a register and a key read at hand, any other spelling through its data address. -/
theorem readOperandModes : Obligations.ReadOperandModes := by
  refine fun o s => ⟨fun v hf => readOp_imm hf, fun r hf => readOp_reg hf, fun v hi hr hk => readOp_key hi hr hk,
    fun hk => ⟨fun n hf => ?direct, fun r hf => ?indirect⟩⟩
  case direct => exact readOp_memory hk (by rw [hf, readAddr?])
  case indirect => exact readOp_memory hk (by rw [hf, readAddr?, State.regAddr])

/-- Settles O19: each mode gives the destination, and the write stores there. -/
theorem writeOperandModes : Obligations.WriteOperandModes := by
  refine fun o v s => ⟨fun n hf => writeOp_of_no_dest (dest?_imm hf), fun r hf => writeOp_of_dest (dest?_reg hf),
    fun w hi hr hk => writeOp_of_dest (dest?_key hi hr hk), fun hk => ⟨fun n hf => ?direct, fun r hf => ?indirect,
      fun r1 r2 hf => ?indexed, fun n hf => ?ipRel, fun hf => ?other⟩⟩
  case direct => exact writeOp_memory hk (by rw [hf, writeAddr?])
  case indirect => exact writeOp_memory hk (by rw [hf, writeAddr?, State.regAddr])
  case indexed => exact writeOp_memory hk (by rw [hf, writeAddr?, State.regAddr, State.regAddr, Nat.cast_add])
  case ipRel => exact writeOp_memory hk (by rw [hf, writeAddr?, State.regAddr])
  case other => exact writeOp_of_no_dest (by simp [dest?, writeAddr?, hf, hk])

/-- Settles O20: the two tables are searched in this order, and only then is the form consulted. -/
theorem targetLookupOrder : Obligations.TargetLookupOrder := by
  refine fun o s => ⟨fun v hl => ?label, fun v hl hp => ?procedure, fun hl hp => ⟨fun n hf => ?literal, fun hf => ?none⟩⟩
  case label => rw [target, hl]
  case procedure => rw [target_of_procs hp, hl, Option.getD_none]
  case literal => simp [target, hl, hp, hf, u16]
  case none =>
    simp only [target, hl, hp]
    split
    · next n hn => exact absurd hn (hf n)
    all_goals rfl

/-! ## A word written reads back (R87, R93) -/

/-- Settles O22: the bytes a word write leaves are those of the word at its two addresses and the old ones elsewhere. -/
theorem wordReadsBack : Obligations.WordReadsBack := by
  intro s t a v h
  obtain ⟨⟨hlo, hhi⟩, rfl⟩ := State.memWrite2_ok h
  have hnext : (a + 1).toNat = a.toNat + 1 := by omega
  have hne : a.toNat + 1 ≠ a.toNat := by omega
  refine ⟨?word, ?high, ?low, fun b hb => ?apart⟩
  case word =>
    rw [State.memRead2_eq, if_pos ⟨hlo, by omega⟩, State.writeWord_readByte, State.writeWord_readByte, if_pos rfl,
      if_neg hne, if_pos rfl, joinBytes_hiByte_loByte]
  case high =>
    rw [State.memRead1_eq, if_pos ⟨hlo, by omega⟩, State.writeWord_readByte, if_pos rfl, hiByte]
  case low =>
    rw [State.memRead1_eq, if_pos ⟨by omega, by omega⟩, State.writeWord_readByte, hnext, if_neg hne, if_pos rfl, loByte]
  case apart =>
    rw [State.memRead2_eq, State.memRead2_eq]
    split_ifs with hin
    · rw [State.writeWord_readByte, State.writeWord_readByte, if_neg (by omega), if_neg (by omega), if_neg (by omega),
        if_neg (by omega)]
    · rfl

end Sys2Proof.Machine
end

section
/-! SUPPORT. The fetch loop (R250, R251, R402) and the state a run starts in (R52, R500). -/

namespace Sys2Proof.Machine

/-- Settles O2: IP advances after a line that did not fail, and stays after one that did. -/
theorem stepRunsDecodedLine : Obligations.StepRunsDecodedLine := by
  intro s line i hrun hfetch hdecode
  have hstep : step s = finish (exec i s) := step_of_decode hrun hfetch hdecode
  refine ⟨hstep, fun t ht hsafe => ?safe, fun t ht hfail => ?failed⟩
  case safe =>
    rw [hstep, ht, finish, State.retire_ok hsafe]
    rfl
  case failed =>
    have hfailed : t.failed = true := by simpa [State.Safe] using hfail
    rw [hstep, ht, finish, State.retire, if_pos hfailed]

/-- Settles O3: no line is fetched at or past `L`, a malformed line raises its error, and a stop state is final. -/
theorem stepWithoutInstruction : Obligations.StepWithoutInstruction := by
  refine ⟨fun s hrun hlen => ?overrun, fun s line e hrun hfetch hdecode => ?malformed, fun s hstop => ?stopped⟩
  case overrun =>
    have hfetch : s.fetch = none := List.getElem?_eq_none hlen
    simp [step, hrun, hfetch, State.overrun]
  case malformed =>
    have hfetch : s.fetch = some line := hfetch
    simp only [step, hrun, hfetch, hdecode, finish, State.retire_raise]
    rfl
  case stopped =>
    unfold step
    split
    · next hrun => exact absurd hrun hstop
    all_goals rfl

/-- Settles O1: each field of the launch is the one R52 states. -/
theorem resetLeavesSpecValues : Obligations.ResetLeavesSpecValues := by
  refine ⟨rfl, fun p => ⟨rfl, rfl, fun r => ?registers, rfl, rfl, rfl, fun k => ⟨rfl, rfl, rfl⟩, rfl, fun a => rfl,
    fun d => ?devices, ?timers, rfl, ?controllers, rfl⟩⟩
  case registers => cases r <;> rfl
  case devices => cases d <;> rfl
  case timers => exact List.replicate_succ.symm
  case controllers =>
    rintro c rfl
    show PicSystem.reset Config.picCascade = _
    cases Config.picCascade <;> rfl

end Sys2Proof.Machine
end

section
/-! SUPPORT. MOV and the ALU (41_alu.md): a completed line with the value and flags its operation computes, the first error
of a line, and the frame. -/

namespace Sys2Proof.Machine

section
variable {dst src : Operand} {s : State}

/-- A completed line leaves the value and the flags the operation computes (R211). -/
theorem aluLine2_next {op : Word → Word → Flags → AluOut} {t : State} {a b r : Word} {f : Flags}
    (hop : op a b s.flags = ⟨r, f⟩) (ha : readOp dst s = .ok a) (hb : readOp src s = .ok b)
    (hw : writeOp dst r s = .ok t) : aluLine2 op dst src s = .next { t with flags := f } := by
  rw [aluLine2_ok ha hb (by rwa [hop]), hop]
  rfl

theorem aluLine1_next {op : Word → Flags → AluOut} {t : State} {a r : Word} {f : Flags}
    (hop : op a s.flags = ⟨r, f⟩) (ha : readOp dst s = .ok a) (hw : writeOp dst r s = .ok t) :
    aluLine1 op dst s = .next { t with flags := f } := by
  rw [aluLine1_ok ha (by rwa [hop]), hop]
  rfl

end

/-- Settles O23: the value read is the value written, and a write through an operand keeps the flags. -/
theorem movResult : Obligations.MovResult := by
  intro dst src s t v hv hw
  obtain ⟨-, -, -, hflags, -⟩ := writeOp_frame hw
  refine ⟨?_, hflags⟩
  simp [exec, execMov, hv, hw, bind, Except.bind]

/-- Settles O24: the operation's value and flags are the statement's. -/
theorem addResult : Obligations.AddResult := fun _ _ _ _ a b ha hb hw => aluLine2_next (aluAdd_eq a b _) ha hb hw

/-- Settles O25: as for ADD, with the borrow for the carry. -/
theorem subResult : Obligations.SubResult := fun _ _ _ _ a b ha hb hw => aluLine2_next (aluSub_eq a b _) ha hb hw

/-- Settles O26: the product and the quotient of bit vectors are the two of the statement. -/
theorem mulDivResult : Obligations.MulDivResult := by
  refine fun dst src s t a b r ha hb hw => ⟨fun hr => ?mul, fun hr => ?div⟩
  case mul =>
    obtain rfl : r = a * b := BitVec.eq_of_toNat_eq (by rw [hr, BitVec.toNat_mul])
    exact aluLine2_next (aluMul_eq a b _) ha hb hw
  case div =>
    obtain rfl : r = a / b := by
      apply BitVec.eq_of_toNat_eq
      rw [hr, BitVec.toNat_udiv]
      split_ifs with hzero
      · simp [hzero]
      · rfl
    exact aluLine2_next (aluDiv_eq a b _) ha hb hw

/-- Settles O27: each operation writes ZF and SF alone. -/
theorem logicResult : Obligations.LogicResult :=
  ⟨fun _ _ _ _ a b ha hb => ⟨fun hw => aluLine2_next (aluAnd_eq a b _) ha hb hw,
      fun hw => aluLine2_next (aluOr_eq a b _) ha hb hw, fun hw => aluLine2_next (aluXor_eq a b _) ha hb hw⟩,
    fun _ _ _ a ha hw => aluLine1_next (aluNot_eq a _) ha hw⟩

/-! ## The first error of a line (R402, R406) -/

section
variable {dst src : Operand} {s : State}

theorem commit_bind_error {α : Type} {x : Except FatalError α} {f : α → Except FatalError State} {e : FatalError}
    (h : x = .error e) : commit s (x >>= f) = .next (s.raise e) := by
  rw [h]
  rfl

theorem commit_bind_ok {α : Type} {x : Except FatalError α} {f : α → Except FatalError State} {a : α}
    (h : x = .ok a) : commit s (x >>= f) = commit s (f a) := by
  rw [h]
  rfl

/-- The two-operand instructions of the ALU are one line, each with its operation (R211 to R217). -/
theorem exec_eq_aluLine2 {i : Instr} (hi : i ∈ [Instr.add dst src, .sub dst src, .mul dst src, .div dst src,
    .and dst src, .or dst src, .xor dst src]) : ∃ op, ∀ s, exec i s = aluLine2 op dst src s := by
  simp only [List.mem_cons, List.not_mem_nil, or_false] at hi
  rcases hi with rfl | rfl | rfl | rfl | rfl | rfl | rfl
  · exact ⟨fun a b f => aluAdd a b (carryIn f) f, fun _ => rfl⟩
  · exact ⟨fun a b f => aluSub a b (carryIn f) f, fun _ => rfl⟩
  · exact ⟨aluMul, fun _ => rfl⟩
  · exact ⟨aluDiv, fun _ => rfl⟩
  · exact ⟨aluAnd, fun _ => rfl⟩
  · exact ⟨aluOr, fun _ => rfl⟩
  · exact ⟨aluXor, fun _ => rfl⟩

/-- The error of a line's first access to fail is the state's (R402). -/
theorem aluLine2_error {op : Word → Word → Flags → AluOut} {e : FatalError}
    (h : readOp dst s = .error e ∨ (∃ a, readOp dst s = .ok a ∧ readOp src s = .error e) ∨
      ∃ a b, readOp dst s = .ok a ∧ readOp src s = .ok b ∧ ∀ v, writeOp dst v s = .error e) :
    aluLine2 op dst src s = .next (s.raise e) := by
  unfold aluLine2
  rcases h with ha | ⟨a, ha, hb⟩ | ⟨a, b, ha, hb, hw⟩
  · exact commit_bind_error ha
  · rw [commit_bind_ok ha]
    exact commit_bind_error hb
  · rw [commit_bind_ok ha, commit_bind_ok hb]
    exact commit_bind_error (hw _)

theorem aluLine1_error {op : Word → Flags → AluOut} {e : FatalError}
    (h : readOp dst s = .error e ∨ ∃ a, readOp dst s = .ok a ∧ ∀ v, writeOp dst v s = .error e) :
    aluLine1 op dst s = .next (s.raise e) := by
  unfold aluLine1
  rcases h with ha | ⟨a, ha, hw⟩
  · exact commit_bind_error ha
  · rw [commit_bind_ok ha]
    exact commit_bind_error (hw _)

theorem execMov_error {e : FatalError}
    (h : readOp src s = .error e ∨ ∃ v, readOp src s = .ok v ∧ writeOp dst v s = .error e) :
    execMov dst src s = .next (s.raise e) := by
  unfold execMov
  rcases h with hv | ⟨v, hv, hw⟩
  · exact commit_bind_error hv
  · rw [commit_bind_ok hv, hw, commit_error]

end

/-! ## The end of the Call Stack -/

section
variable {s : State} {l : List Word} {v : Word}

theorem State.top?_of_concat (h : s.cstack = l ++ [v]) : s.top? = some v := by simp [State.top?, h]

theorem State.dropTop_of_concat (h : s.cstack = l ++ [v]) : s.dropTop = { s with cstack := l } := by
  simp [State.dropTop, h]

theorem exec_pop_of_concat (h : s.cstack = l ++ [v]) (o : Operand) :
    exec (.pop o) s = commit s (writeOp o v { s with cstack := l }) := by
  simp only [exec, execPop, State.top?_of_concat h, State.dropTop_of_concat h]

theorem exec_ret_of_concat (h : s.cstack = l ++ [v]) : exec .ret s = .next ({ s with cstack := l }.setReg .IP v) := by
  simp only [exec, execRet, State.top?_of_concat h, State.dropTop_of_concat h]

end

/-- Settles O29: the line raises what its first failing access answers, over the state before it. -/
theorem operandErrorsEndTheRun : Obligations.OperandErrorsEndTheRun := by
  refine fun dst src s e => ⟨fun i hi hd => ?dstRead, fun i hi a ha hb => ?srcRead, fun i hi a b ha hb hw => ?dstWrite,
    fun a ha hw => aluLine1_error (.inr ⟨a, ha, hw⟩), fun hv => execMov_error (.inl hv),
    fun v hv hw => execMov_error (.inr ⟨v, hv, hw⟩), fun hv => commit_bind_error hv, fun l v hl hw => ?pop,
    fun ht => ⟨commit_bind_error ht, commit_bind_error ht⟩⟩
  case dstRead =>
    have hsplit : i ∈ [Instr.add dst src, .sub dst src, .mul dst src, .div dst src, .and dst src, .or dst src,
        .xor dst src] ++ [.not dst] := hi
    rcases List.mem_append.mp hsplit with hi | hi
    · obtain ⟨op, hop⟩ := exec_eq_aluLine2 hi
      exact (hop s).trans (aluLine2_error (.inl hd))
    · obtain rfl := List.mem_singleton.mp hi
      exact aluLine1_error (.inl hd)
  case srcRead =>
    obtain ⟨op, hop⟩ := exec_eq_aluLine2 hi
    exact (hop s).trans (aluLine2_error (.inr (.inl ⟨a, ha, hb⟩)))
  case dstWrite =>
    obtain ⟨op, hop⟩ := exec_eq_aluLine2 hi
    exact (hop s).trans (aluLine2_error (.inr (.inr ⟨a, b, ha, hb, hw⟩)))
  case pop =>
    rw [exec_pop_of_concat hl, hw, commit_error]
    rfl

/-- Settles O30: a completed line writes its destination and its flags, a failed one only the status. -/
theorem aluFrame : Obligations.AluFrame := by
  intro dst src i s t hi h
  rcases exec_aluEffect hi h with ⟨v, u, f, hw, hf, rfl⟩ | ⟨e, rfl⟩
  · obtain ⟨hregs, hbytes, hdst, -, htargets, hunits, hstatus, hdev, hseg, hstack, hdiags, hprog⟩ := writeOp_frame hw
    exact ⟨hregs, hbytes, hdst, ⟨hf.parity, hf.direction, hf.interrupt⟩, hf.carry, hf.mov, htargets, hunits,
      .inl hstatus, hdev, hseg, hstack, hdiags, hprog⟩
  · exact ⟨fun _ _ => rfl, fun _ _ => rfl, fun _ _ => rfl, ⟨rfl, rfl, rfl⟩, fun _ _ => ⟨rfl, rfl⟩, fun _ => rfl,
      ⟨rfl, rfl⟩, ⟨rfl, rfl, rfl⟩, .inr ⟨e, rfl⟩, rfl, rfl, rfl, rfl, rfl⟩

end Sys2Proof.Machine
end

section
/-! SUPPORT. The Call Stack and control (42_stack_control.md): PUSH, POP, JMP, CALL, RET and HLT, and the recoverable errors
of the instructions (R404). -/

namespace Sys2Proof.Machine

theorem Regs.set_set (f : Regs) (r : Reg) (v w : Word) : (f.set r v).set r w = f.set r w := by cases r <;> rfl

@[simp] theorem State.setReg_setReg (s : State) (r : Reg) (v w : Word) : (s.setReg r v).setReg r w = s.setReg r w :=
  congrArg (fun regs => { s with regs }) (Regs.set_set s.regs r v w)

/-- Settles O31: the value read is appended, and the last value is written over the shorter stack. -/
theorem pushPopResult : Obligations.PushPopResult := by
  refine ⟨fun src s v hv => commit_bind_ok hv, fun dst s t l v hl hw => ⟨?pop, ?stack⟩⟩
  case pop => rw [exec_pop_of_concat hl, hw, commit_ok]
  case stack =>
    obtain ⟨-, -, -, -, -, -, -, -, -, hstack, -⟩ := writeOp_frame hw
    exact hstack

theorem exec_jmp {tgt : Operand} {s : State} {v : Word} (h : target tgt s = .ok v) :
    exec (.jmp tgt) s = .next (s.jumpTo v) := commit_bind_ok h

theorem exec_call {tgt : Operand} {s : State} {v : Word} (h : target tgt s = .ok v) :
    exec (.call tgt) s = .next ((s.push (s.getReg .IP + 1)).jumpTo v) := commit_bind_ok h

/-- The loop's increment makes the target of a jump the next line (R254). -/
theorem State.advance_jumpTo (s : State) (v : Word) : (s.jumpTo v).advance = s.setReg .IP v := by
  simp [State.advance, State.jumpTo]

/-- Settles O32: the target minus 1 goes into IP, and the loop adds the 1. -/
theorem jumpCallReturnResult : Obligations.JumpCallReturnResult := by
  refine ⟨fun tgt s v h => ⟨exec_jmp h, exec_call h⟩, fun s l v hl => exec_ret_of_concat hl,
    fun tgt s line v h hrun hfetch hdecode => ?step⟩
  calc step s = finish (exec (.jmp tgt) s) := step_of_decode hrun hfetch hdecode
    _ = finish (.next (s.jumpTo v)) := by rw [exec_jmp h]
    _ = .next (s.jumpTo v).advance := finish_of_running hrun
    _ = .next (s.setReg .IP v) := by rw [State.advance_jumpTo]

theorem run_of_step {M : Host.Core} {k : Nat} {s t : M.State} (h : M.step s = .next t) :
    M.run (k + 1) s = M.run k t := by
  rw [Host.Core.run, h]

/-- Settles O34: CALL leaves its index plus 1 on the stack, RET puts it into IP, and the loop adds another 1. -/
theorem returnSkipsTheLineAfterCall : Obligations.ReturnSkipsTheLineAfterCall := by
  intro s callLine retLine tgt v hrun hcallFetch hcall htarget hretFetch hret
  have hcallStep : step s = .next ((s.push (s.getReg .IP + 1)).setReg .IP v) := by
    calc step s = finish (exec (.call tgt) s) := step_of_decode hrun hcallFetch hcall
      _ = finish (.next ((s.push (s.getReg .IP + 1)).jumpTo v)) := by rw [exec_call htarget]
      _ = .next ((s.push (s.getReg .IP + 1)).jumpTo v).advance := finish_of_running hrun
      _ = .next ((s.push (s.getReg .IP + 1)).setReg .IP v) := by rw [State.advance_jumpTo]
  have hretStep : step ((s.push (s.getReg .IP + 1)).setReg .IP v) = .next (s.setReg .IP (s.getReg .IP + 2)) := by
    have hfetch : ((s.push (s.getReg .IP + 1)).setReg .IP v).fetch = some retLine := by
      simpa [State.fetch] using hretFetch
    calc step ((s.push (s.getReg .IP + 1)).setReg .IP v)
      _ = finish (exec .ret ((s.push (s.getReg .IP + 1)).setReg .IP v)) := step_of_decode hrun hfetch hret
      _ = finish (.next ((s.setReg .IP v).setReg .IP (s.getReg .IP + 1))) := by rw [exec_ret_of_concat rfl]; rfl
      _ = .next ((s.setReg .IP v).setReg .IP (s.getReg .IP + 1)).advance := finish_of_running hrun
      _ = .next (s.setReg .IP (s.getReg .IP + 2)) := by
        simp [State.advance, add_assoc]
  exact (run_of_step (M := core) hcallStep).trans (run_of_step (M := core) hretStep)

theorem exec_hlt (s : State) : exec .hlt s = .next { s with status := .halted } := rfl

/-- Settles O35: the halt signal is no failure, so IP advances. -/
theorem hltResult : Obligations.HltResult := by
  refine ⟨exec_hlt, fun s line hrun hfetch hdecode => ?step⟩
  rw [step_of_decode hrun hfetch hdecode, exec_hlt]
  rfl

/-- Settles O33: on an empty stack, and for an unknown code, device or port, the line is its one event. -/
theorem recoverableErrorsOnlyDiagnose : Obligations.RecoverableErrorsOnlyDiagnose := by
  refine ⟨fun dst s h => ?empty, fun t b s => ⟨rfl, rfl, rfl, rfl⟩⟩
  have htop : s.top? = none := by simp [State.top?, h]
  constructor
  · simp only [exec, execPop, htop]
    rfl
  · simp only [exec, execRet, htop]
    rfl

/-- Settles O36: each line changes what its own case names, a failed one only the status. -/
theorem controlFrame : Obligations.ControlFrame := by
  intro o i s t hi h
  simp only [List.mem_cons, List.not_mem_nil, or_false] at hi
  unfold SameRegsExcept SameBytesExcept SameTargets SameUnits SameStatusOrError
  rcases hi with rfl | rfl | rfl | rfl | rfl | rfl
  case _ => rcases exec_push_cases h with ⟨v, rfl⟩ | ⟨e, rfl⟩ <;> simp
  case _ =>
    rcases exec_pop_cases h with ⟨d, rfl⟩ | ⟨v, hw⟩ | ⟨e, rfl⟩
    · simp
    · obtain ⟨hregs, hbytes, hdst, hflags, htargets, hunits, hstatus, hdev, hseg, hstack, hdiags, hprog⟩ := writeOp_frame hw
      refine ⟨fun r hr => hregs r fun hd => hr (.inl ⟨rfl, hd⟩), fun a ha => hbytes a fun hd => ha ⟨rfl, hd⟩,
        fun k hk => hdst k fun hd => hk ⟨rfl, hd⟩, nofun, nofun, fun _ => .inr hstack, fun hne => absurd rfl hne,
        fun _ => .inl hstatus, hflags, htargets, hunits, hdev, hseg, hprog⟩
    · simp
  case _ => rcases exec_jmp_cases h with ⟨v, rfl⟩ | ⟨e, rfl⟩ <;> simp +contextual
  case _ => rcases exec_call_cases h with ⟨v, rfl⟩ | ⟨e, rfl⟩ <;> simp +contextual
  case _ => rcases exec_ret_cases h with ⟨d, rfl⟩ | ⟨v, rfl⟩ <;> simp +contextual
  case _ =>
    obtain rfl := Host.Outcome.next.inj h
    simp [State.getReg, State.readByte]

end Sys2Proof.Machine
end

section
/-! SUPPORT. The string instructions (43_string_flag.md, R289 to R293): the accesses at an address a register holds, the
completed lines, and the range errors. -/

namespace Sys2Proof.Machine

/-! ## An access at the address a register holds (R82 to R85) -/

section
variable {n : Nat} (s : State)

theorem State.memRead1_nat (h : n ≤ 255) : s.memRead1 n = .ok (s.readByte n) := by
  rw [State.memRead1_eq, if_pos (by omega), Int.toNat_natCast]

theorem State.memRead1_nat_above (h : 255 < n) : s.memRead1 n = .error (.addressing (.address n)) := by
  rw [State.memRead1_eq, if_neg (by omega)]

theorem State.memWrite1_nat (h : n ≤ 255) (b : Byte) : s.memWrite1 n b = .ok (s.writeByte n b) := by
  rw [State.memWrite1_eq, if_pos (by omega), Int.toNat_natCast]

theorem State.memWrite1_nat_above (h : 255 < n) (b : Byte) : s.memWrite1 n b = .error (.addressing (.address n)) := by
  rw [State.memWrite1_eq, if_neg (by omega)]

theorem State.memRead2_nat (h : n ≤ 254) : s.memRead2 n = .ok (joinBytes (s.readByte n) (s.readByte (n + 1))) := by
  rw [State.memRead2_eq, if_pos (by omega), Int.toNat_natCast]

theorem State.memRead2_nat_above (h : 254 < n) : s.memRead2 n = .error (.addressing (.address n)) := by
  rw [State.memRead2_eq, if_neg (by omega)]

theorem State.memWrite2_nat (h : n ≤ 254) (v : Word) :
    s.memWrite2 n v = .ok ((s.writeByte n (hiByte v)).writeByte (n + 1) (loByte v)) := by
  rw [State.memWrite2_eq, if_pos (by omega), Int.toNat_natCast]

theorem State.memWrite2_nat_above (h : 254 < n) (v : Word) : s.memWrite2 n v = .error (.addressing (.address n)) := by
  rw [State.memWrite2_eq, if_neg (by omega)]

end

/-! ## A completed line, and the first error of one -/

section
variable {s : State} {α β : Type} {x : Except FatalError α} {y : α → Except FatalError β} {g : α → β → State}

theorem commit_two_ok {a : α} {b : β} (hx : x = .ok a) (hy : y a = .ok b) :
    commit s (x >>= fun a => y a >>= fun b => .ok (g a b)) = .next (g a b) := by
  rw [commit_bind_ok hx, commit_bind_ok hy, commit_ok]

theorem commit_two_error {a : α} {e : FatalError} (hx : x = .ok a) (hy : y a = .error e) :
    commit s (x >>= fun a => y a >>= fun b => .ok (g a b)) = .next (s.raise e) := by
  rw [commit_bind_ok hx, commit_bind_error hy]

end

section
variable {s : State}

theorem exec_movsb (hs : (s.getReg .SI).toNat ≤ 255) (hd : (s.getReg .DI).toNat ≤ 255) :
    exec .movsb s =
      .next ((s.writeByte (s.getReg .DI).toNat (s.readByte (s.getReg .SI).toNat)).stepPointers 1) := by
  simp only [exec, execMovsb]
  exact commit_two_ok (s.memRead1_nat hs) (s.memWrite1_nat hd _)

theorem exec_movsw (hs : (s.getReg .SI).toNat ≤ 254) (hd : (s.getReg .DI).toNat ≤ 254) :
    exec .movsw s =
      .next (((s.writeByte (s.getReg .DI).toNat (s.readByte (s.getReg .SI).toNat)).writeByte ((s.getReg .DI).toNat + 1)
        (s.readByte ((s.getReg .SI).toNat + 1))).stepPointers 2) := by
  have hword := s.memWrite2_nat hd (joinBytes (s.readByte (s.getReg .SI).toNat) (s.readByte ((s.getReg .SI).toNat + 1)))
  rw [hiByte_joinBytes, loByte_joinBytes] at hword
  simp only [exec, execMovsw]
  exact commit_two_ok (s.memRead2_nat hs) hword

theorem exec_cmpsb (hs : (s.getReg .SI).toNat ≤ 255) (hd : (s.getReg .DI).toNat ≤ 255) :
    exec .cmpsb s =
      .next ((s.compare (zext (s.readByte (s.getReg .SI).toNat)) (zext (s.readByte (s.getReg .DI).toNat))).stepPointers
        1) := by
  simp only [exec, execCmpsb]
  exact commit_two_ok (s.memRead1_nat hs) (s.memRead1_nat hd)

theorem exec_cmpsw {a b : Word} (ha : s.memRead2 (s.getReg .SI).toNat = .ok a)
    (hb : s.memRead2 (s.getReg .DI).toNat = .ok b) : exec .cmpsw s = .next ((s.compare a b).stepPointers 2) := by
  simp only [exec, execCmpsw]
  exact commit_two_ok ha hb

/-- A pointer goes up by the width, or down where DF is set (R289). -/
theorem State.stepPointers_pointer {r : Reg} (hr : r = .SI ∨ r = .DI) (w : Word) :
    (s.stepPointers w).getReg r = if s.flags.DF then s.getReg r - w else s.getReg r + w := by
  rw [State.stepPointers_getReg, if_pos hr, delta]
  split
  · rw [BitVec.sub_eq_add_neg]
  · rfl

end

/-- Settles O37: the bytes read are the bytes written, and the pointers move after the writes. -/
theorem stringMoves : Obligations.StringMoves := by
  refine fun s => ⟨fun hs hd => ?byte, fun hs hd => ?word⟩
  case byte =>
    exact ⟨_, exec_movsb hs hd, rfl, fun x => by rw [State.stepPointers_readByte, State.writeByte_readByte],
      State.stepPointers_pointer (.inl rfl) 1, State.stepPointers_pointer (.inr rfl) 1⟩
  case word =>
    refine ⟨_, exec_movsw hs hd, rfl, fun x => ?_, State.stepPointers_pointer (.inl rfl) 2,
      State.stepPointers_pointer (.inr rfl) 2⟩
    rw [State.stepPointers_readByte, State.writeByte_readByte, State.writeByte_readByte]
    by_cases hx : x = (s.getReg .DI).toNat
    · rw [if_pos hx, if_pos hx, if_neg (by omega)]
    · rw [if_neg hx, if_neg hx]

/-! ## The flags of a comparison (R292, R293) -/

theorem State.compare_flags_eq (s : State) (a b : Word) :
    (s.compare a b).flags = { s.flags with
      CF := decide (a.toNat < b.toNat)
      OF := decide (a.msb ≠ b.msb ∧ (a - b).msb ≠ a.msb)
      ZF := decide (a = b)
      SF := (a - b).msb } := by
  have hzero : a - b = 0 ↔ a = b := by
    constructor
    · intro h
      bv_omega
    · rintro rfl
      exact BitVec.sub_self a
  simp only [State.compare_flags, aluSub_eq, hzero]

theorem zext_toNat (b : Byte) : (zext b).toNat = b.toNat := by
  have hb := b.isLt
  rw [zext, BitVec.toNat_setWidth]
  omega

/-- Two zero-extended bytes have no sign, and their difference is negative where it borrows. -/
theorem msb_zext_sub_zext (a b : Byte) :
    (zext a).msb = false ∧ (zext b).msb = false ∧
      (zext a - zext b).msb = decide ((zext a).toNat < (zext b).toNat) := by
  have ha := a.isLt
  have hb := b.isLt
  simp only [BitVec.msb_eq_decide, BitVec.toNat_sub, zext_toNat, decide_eq_false_iff_not, decide_eq_decide]
  omega

/-- Settles O38: the flags are those of the subtraction; of two bytes it cannot overflow. -/
theorem stringCompares : Obligations.StringCompares := by
  refine fun s a b => ⟨fun hs hd ha hb => ?byte, fun ha hb => ?word⟩
  case byte =>
    obtain rfl : a = zext _ := ha
    obtain rfl : b = zext _ := hb
    refine ⟨_, exec_cmpsb hs hd, rfl, ?_, rfl, State.stepPointers_pointer (.inl rfl) 1,
      State.stepPointers_pointer (.inr rfl) 1⟩
    obtain ⟨hma, hmb, hsub⟩ := msb_zext_sub_zext (s.readByte (s.getReg .SI).toNat) (s.readByte (s.getReg .DI).toNat)
    rw [State.stepPointers_flags, State.compare_flags_eq, hma, hmb, hsub]
    simp
  case word =>
    exact ⟨_, exec_cmpsw ha hb, rfl, State.compare_flags_eq s a b, rfl, State.stepPointers_pointer (.inl rfl) 2,
      State.stepPointers_pointer (.inr rfl) 2⟩

/-- Settles O40: the source is accessed first, and the first address out of range is the one raised. -/
theorem stringRangeErrors : Obligations.StringRangeErrors := by
  refine fun s => ⟨fun i hi => ⟨fun hs => ?byteSource, fun hs hd => ?byteDest⟩,
    fun i hi => ⟨fun hs => ?wordSource, fun hs hd => ?wordDest⟩⟩
  all_goals
    simp only [List.mem_cons, List.not_mem_nil, or_false] at hi
    rcases hi with rfl | rfl <;> simp only [exec, execMovsb, execCmpsb, execMovsw, execCmpsw]
  case byteSource.inl => exact commit_bind_error (s.memRead1_nat_above hs)
  case byteSource.inr => exact commit_bind_error (s.memRead1_nat_above hs)
  case byteDest.inl => exact commit_two_error (s.memRead1_nat hs) (s.memWrite1_nat_above hd _)
  case byteDest.inr => exact commit_two_error (s.memRead1_nat hs) (s.memRead1_nat_above hd)
  case wordSource.inl => exact commit_bind_error (s.memRead2_nat_above hs)
  case wordSource.inr => exact commit_bind_error (s.memRead2_nat_above hs)
  case wordDest.inl => exact commit_two_error (s.memRead2_nat hs) (s.memWrite2_nat_above hd _)
  case wordDest.inr => exact commit_two_error (s.memRead2_nat hs) (s.memRead2_nat_above hd)

/-- Settles O41: each line changes what its own case names, a failed one only the status. -/
theorem stringFrame : Obligations.StringFrame := by
  intro i s t hi h
  simp only [List.mem_cons, List.not_mem_nil, or_false] at hi
  unfold SameRegsExcept SameBytesExcept SameTargets SameUnits SameStatusOrError
  rcases hi with rfl | rfl | rfl | rfl | rfl | rfl
  case _ =>
    rcases exec_movsb_cases h with ⟨b, u, hw, rfl⟩ | ⟨e, rfl⟩
    · obtain ⟨-, rfl⟩ := State.memWrite1_ok hw
      simp +contextual [State.stepPointers_getReg, State.diAddr]
    · simp
  case _ =>
    rcases exec_movsw_cases h with ⟨v, u, hw, rfl⟩ | ⟨e, rfl⟩
    · obtain ⟨-, rfl⟩ := State.memWrite2_ok hw
      simp +contextual [State.stepPointers_getReg, State.diAddr]
    · simp
  case _ =>
    rcases exec_cmpsb_cases h with ⟨a, b, w, rfl⟩ | ⟨e, rfl⟩
    · simp +contextual [State.stepPointers_getReg, aluSub, Flags.withResult]
    · simp
  case _ =>
    rcases exec_cmpsw_cases h with ⟨a, b, w, rfl⟩ | ⟨e, rfl⟩
    · simp +contextual [State.stepPointers_getReg, aluSub, Flags.withResult]
    · simp
  case _ =>
    obtain rfl := Host.Outcome.next.inj h
    simp
  case _ =>
    obtain rfl := Host.Outcome.next.inj h
    simp

end Sys2Proof.Machine
end

section
/-! SUPPORT. Pseudo-operations, label lines, empty lines and unknown opcodes (44_directives.md, R310 to R320). -/

namespace Sys2Proof.Machine

theorem Table.find?_insert' (t : Table) (k q : Token) (v : Word) :
    (t.insert k v).find? q = if q = k then some v else t.find? q := by
  simp only [Table.find?_insert, eq_comm (a := k)]

/-- Settles O43: the three lines make one insertion. -/
theorem dataDefinition : Obligations.DataDefinition := by
  intro l v s i hi
  have hexec : exec i s = .next (s.defineData l v) := by
    simp only [List.mem_cons, List.not_mem_nil, or_false] at hi
    rcases hi with rfl | rfl | rfl <;> rfl
  exact ⟨_, hexec, fun k => Table.find?_insert' s.dst l k (u16 v), rfl⟩

/-- Settles O45: a label line is one insertion, the two markers change nothing. -/
theorem labelAndMarkerLines : Obligations.LabelAndMarkerLines := fun s =>
  ⟨fun n => ⟨_, rfl, fun k => Table.find?_insert' s.labels n k (s.getReg .IP), rfl⟩, rfl, rfl⟩

/-- Settles O47: each line is one update of the field its own case names. -/
theorem directiveFrame : Obligations.DirectiveFrame := by
  intro n v i s t hi h
  simp only [List.mem_cons, List.not_mem_nil, or_false] at hi
  unfold SameUnits
  rcases hi with rfl | rfl | rfl | rfl | rfl | rfl | rfl | rfl | rfl | rfl | rfl <;>
  · obtain rfl := Host.Outcome.next.inj h
    simp [State.readByte]

end Sys2Proof.Machine
end

section
/-! SUPPORT. The peripheral-forwarding instructions (45_peripheral.md, R330 to R340) and the tick coupling (R336). -/

namespace Sys2Proof.Machine

theorem Devices.get_set (ds : Devices) (d q : Device) (b : Bool) :
    (ds.set d b).get q = if q = d then b else ds.get q := by
  cases d <;> cases q <;> rfl

/-- Settles O48: the map is a bijection, so one code and no other selects a device and a state. -/
theorem voiceAndStatusResult : Obligations.VoiceAndStatusResult := by
  refine ⟨fun c s => ⟨_, rfl, fun d => Devices.get_set s.devices _ d _, rfl⟩, fun d on => ?bijection, fun d s => rfl⟩
  obtain ⟨c, hc⟩ := Config.voiceMapping.surjective d on
  exact ⟨c, hc, fun c' hc' => Config.voiceMapping.injective c' c (hc'.trans hc.symm)⟩

/-! ## Channel 0 (R332 to R335) -/

section
variable {s : State} {ch : TimerChannel} {rest : List TimerChannel} (h : s.timers = ch :: rest)
include h

theorem onChannel_zero (f : TimerChannel → TimerChannel) : onChannel 0 f s = { s with timers := f ch :: rest } := by
  have hch : s.timers[0]? = some ch := by rw [h]; rfl
  have hf : updateAt f 0 s.timers = f ch :: rest := by rw [h, updateAt]
  rw [← hf]
  exact onChannel_of_channel hch f

theorem tickTimerWith_eq (p : Config.TickRules) :
    tickTimerWith p s = { s with
      timers := ch.tick :: rest
      devices := tickCoupling p ch.counter ch.tick.counter ch.running s.devices } := by
  have hch : s.channel0 = ch := by rw [State.channel0, h]; rfl
  simp only [tickTimerWith, timerTick, onChannel_zero h, hch]
  rfl

end

/-- Settles O49: each operation changes the head of the list, and a tick the devices by its coupling. -/
theorem timerInstructionsResult : Obligations.TimerInstructionsResult := by
  intro s ch rest h
  refine ⟨fun mode n => congrArg Host.Outcome.next (onChannel_zero h _), fun hc => ?start, fun hc => ?startAtZero,
    congrArg Host.Outcome.next (onChannel_zero h _), fun hr => ?tick, fun hr => ?tickStopped⟩
  case start =>
    have hstart : ch.start = { ch with running := true } := if_neg hc
    exact congrArg Host.Outcome.next ((onChannel_zero h _).trans (by rw [hstart]))
  case startAtZero =>
    have hstart : ch.start = ch := if_pos hc
    exact congrArg Host.Outcome.next ((onChannel_zero h _).trans (by rw [hstart, ← h]))
  case tick =>
    have htick : ch.tick = { ch with counter := ch.counter - 1, running := decide (ch.counter - 1 ≠ 0) } := if_pos hr
    exact congrArg Host.Outcome.next ((tickTimerWith_eq h _).trans (by rw [htick, hr]))
  case tickStopped =>
    have htick : ch.tick = ch := if_neg (by simp [hr])
    exact congrArg Host.Outcome.next ((tickTimerWith_eq h _).trans (by rw [htick, hr, ← h]))

/-! ## The tick coupling (R336) -/

theorem sampledCounter_eq (sample : Config.TickSample) (before after : Word) :
    sampledCounter sample before after = if sample = .before then before else after := by
  cases sample <;> rfl

/-- The coupling applies its rules at the sampled value, or the gate keeps the devices. -/
theorem tickCoupling_cases (p : Config.TickRules) (before after : Word) (run : Bool) (ds : Devices) :
    tickCoupling p before after run ds =
        p.rules.foldl (applyTickRule (if p.sample = .before then before else after)) ds ∨
      tickCoupling p before after run ds = ds := by
  unfold tickCoupling
  rw [sampledCounter_eq]
  split
  · exact .inl rfl
  · exact .inr rfl

theorem applyTickRule_get {d : Device} (hled : d ≠ .LED3) (hfan : d ≠ .Fan3) (c : Word) (ds : Devices)
    (r : Config.TickRule) : (applyTickRule c ds r).get d = ds.get d := by
  have hd : d ≠ tickDevice r.device := by
    cases r.device with
    | LED3 => exact hled
    | Fan3 => exact hfan
  unfold applyTickRule
  split
  · rw [Devices.get_set, if_neg hd]
  · rfl

theorem foldl_applyTickRule_get {d : Device} (hled : d ≠ .LED3) (hfan : d ≠ .Fan3) (c : Word)
    (rules : List Config.TickRule) (ds : Devices) : (rules.foldl (applyTickRule c) ds).get d = ds.get d := by
  induction rules generalizing ds with
  | nil => rfl
  | cons r rules ih => rw [List.foldl_cons, ih, applyTickRule_get hled hfan]

theorem applyTickRule_of_other {c : Word} (h2 : c ≠ 2) (h3 : c ≠ 3) (h5 : c ≠ 5) (ds : Devices) (r : Config.TickRule) :
    applyTickRule c ds r = ds := by
  have hc : c ≠ tickValue r.value := by
    cases r.value with
    | two => exact h2
    | three => exact h3
    | five => exact h5
  rw [applyTickRule, if_neg hc]

/-- Settles O50: the rules fold over the devices in list order, each at its own value and on its own device. -/
theorem tickCouplingRules : Obligations.TickCouplingRules := by
  refine ⟨Config.tickCoupler.values, Config.tickCoupler.devices, fun p before after run ds =>
    ⟨fun hgate hrun => ?gated, fun d hled hfan => ?device, fun c hc h2 h3 h5 => ?value, fun hrules => ?empty,
      fun r rs c hrules hgate hc => ?first⟩⟩
  case gated => simp [tickCoupling, hgate, hrun]
  case device =>
    rcases tickCoupling_cases p before after run ds with h | h
    · rw [h, foldl_applyTickRule_get hled hfan]
    · rw [h]
  case value =>
    rcases tickCoupling_cases p before after run ds with h | h
    · rw [h, ← hc]
      exact List.foldl_fixed' (fun r => applyTickRule_of_other h2 h3 h5 ds r) p.rules
    · exact h
  case empty =>
    rcases tickCoupling_cases p before after run ds with h | h
    · rw [h, hrules, List.foldl_nil]
    · exact h
  case first =>
    have hopen : (decide (p.gate = .always) || run) = true := by simpa using hgate
    rw [tickCoupling, tickCoupling, if_pos hopen, if_pos hopen, hrules, List.foldl_cons, sampledCounter_eq, ← hc]
    rfl

/-! ## The parallel interface (R337 to R339) -/

/-- A port's register read with the read gating of READ_PORT, at a legal address. -/
theorem readRegister_eq (a1 a0 : Bool) (s : State) :
    readRegister (if a1 then 1 else 0, if a0 then 1 else 0) s =
      { s with ppi := { s.ppi with
          a1 := a1, a0 := a0, rd := false, wr := true, cs := false, data := Ppi.selected { s.ppi with a1 := a1, a0 := a0 } } } := by
  cases a1 <;> cases a0 <;> rfl

/-- Settles O51: the control register and each port at the address lines that select it. -/
theorem portWriteResult : Obligations.PortWriteResult := fun b s =>
  ⟨congrArg Host.Outcome.next (writeRegister_eq true true b s),
    congrArg Host.Outcome.next (writeRegister_eq false false b s),
    congrArg Host.Outcome.next (writeRegister_eq false true b s),
    congrArg Host.Outcome.next (writeRegister_eq true false b s)⟩

/-- Settles O52: each port at the address lines that select it, written and then read. -/
theorem portReadResult : Obligations.PortReadResult := by
  refine ⟨fun s => ⟨congrArg Host.Outcome.next (readRegister_eq false false s),
    congrArg Host.Outcome.next (readRegister_eq false true s),
    congrArg Host.Outcome.next (readRegister_eq true false s)⟩, fun p b s t u ht hu => ?_⟩
  obtain rfl := Host.Outcome.next.inj ht
  obtain rfl := Host.Outcome.next.inj hu
  cases p <;> rfl

/-! ## The frame -/

theorem onChannel_fields (c : Int) (f : TimerChannel → TimerChannel) (s : State) :
    ∃ timers diags, onChannel c f s = { s with timers, diags } := by
  rcases onChannel_cases c f s with ⟨-, h⟩ | ⟨-, h⟩
  · exact ⟨_, s.diags, h⟩
  · exact ⟨s.timers, _, h⟩

theorem tickTimerWith_fields (p : Config.TickRules) (s : State) :
    ∃ devices timers diags, tickTimerWith p s = { s with devices, timers, diags } := by
  obtain ⟨timers, diags, h⟩ := onChannel_fields 0 TimerChannel.tick s
  refine ⟨(tickTimerWith p s).devices, timers, diags, ?_⟩
  calc tickTimerWith p s = { timerTick 0 s with devices := (tickTimerWith p s).devices } := rfl
    _ = { s with devices := (tickTimerWith p s).devices, timers, diags } := by rw [timerTick, h]

theorem portAddress_bits (p : Port) : ∃ a1 a0 : Bool, portAddress p = (if a1 then 1 else 0, if a0 then 1 else 0) := by
  cases p with
  | A => exact ⟨false, false, rfl⟩
  | B => exact ⟨false, true, rfl⟩
  | C => exact ⟨true, false, rfl⟩

theorem writeRegister_portAddress (p : Port) (b : Byte) (s : State) :
    ∃ ppi, writeRegister (portAddress p) b s = { s with ppi } := by
  obtain ⟨a1, a0, h⟩ := portAddress_bits p
  exact ⟨_, h ▸ writeRegister_eq a1 a0 b s⟩

theorem readRegister_portAddress (p : Port) (s : State) : ∃ ppi, readRegister (portAddress p) s = { s with ppi } := by
  obtain ⟨a1, a0, h⟩ := portAddress_bits p
  exact ⟨_, h ▸ readRegister_eq a1 a0 s⟩

/-- What a peripheral-forwarding instruction can change: the devices, the timer and the PPI, each in its own instructions
alone, and the diagnostics. -/
theorem exec_peripheral_fields {c : VoiceArg} {d : DeviceArg} {p : PortArg} {mode : Int} {n : Word} {b : Byte}
    {i : Instr} {s t : State} (hi : i ∈ [Instr.voice c, .status d, .configTimer mode n, .startTimer, .stopTimer,
      .tickTimer, .writeCtrl b, .writePort p b, .readPort p]) (h : exec i s = .next t) :
    ∃ devices timers ppi diags, t = { s with devices, timers, ppi, diags } ∧
      (i ≠ .voice c → i ≠ .tickTimer → devices = s.devices) ∧
      (i ≠ .configTimer mode n → i ≠ .startTimer → i ≠ .stopTimer → i ≠ .tickTimer → timers = s.timers) ∧
      (i ≠ .writeCtrl b → i ≠ .writePort p b → i ≠ .readPort p → ppi = s.ppi) := by
  simp only [List.mem_cons, List.not_mem_nil, or_false] at hi
  rcases hi with rfl | rfl | rfl | rfl | rfl | rfl | rfl | rfl | rfl
  case _ =>
    obtain rfl := Host.Outcome.next.inj h
    cases c with
    | code c => exact ⟨_, s.timers, s.ppi, s.diags, rfl, fun hv => absurd rfl hv, fun _ _ _ _ => rfl, fun _ _ _ => rfl⟩
    | unknown t => exact ⟨s.devices, s.timers, s.ppi, _, rfl, fun _ _ => rfl, fun _ _ _ _ => rfl, fun _ _ _ => rfl⟩
  case _ =>
    cases d with
    | device d =>
      obtain rfl := Host.Outcome.next.inj h
      exact ⟨s.devices, s.timers, s.ppi, _, rfl, fun _ _ => rfl, fun _ _ _ _ => rfl, fun _ _ _ => rfl⟩
    | unknown t =>
      obtain rfl := Host.Outcome.next.inj h
      exact ⟨s.devices, s.timers, s.ppi, _, rfl, fun _ _ => rfl, fun _ _ _ _ => rfl, fun _ _ _ => rfl⟩
  case _ =>
    obtain ⟨timers, diags, ht⟩ := onChannel_fields 0 (TimerChannel.configure mode n) s
    exact ⟨s.devices, timers, s.ppi, diags, (Host.Outcome.next.inj h).symm.trans ht, fun _ _ => rfl,
      fun hc => absurd rfl hc, fun _ _ _ => rfl⟩
  case _ =>
    obtain ⟨timers, diags, ht⟩ := onChannel_fields 0 TimerChannel.start s
    exact ⟨s.devices, timers, s.ppi, diags, (Host.Outcome.next.inj h).symm.trans ht, fun _ _ => rfl,
      fun _ hc => absurd rfl hc, fun _ _ _ => rfl⟩
  case _ =>
    obtain ⟨timers, diags, ht⟩ := onChannel_fields 0 TimerChannel.stop s
    exact ⟨s.devices, timers, s.ppi, diags, (Host.Outcome.next.inj h).symm.trans ht, fun _ _ => rfl,
      fun _ _ hc => absurd rfl hc, fun _ _ _ => rfl⟩
  case _ =>
    obtain ⟨devices, timers, diags, ht⟩ := tickTimerWith_fields Config.tickRules s
    exact ⟨devices, timers, s.ppi, diags, (Host.Outcome.next.inj h).symm.trans ht, fun _ hc => absurd rfl hc,
      fun _ _ _ hc => absurd rfl hc, fun _ _ _ => rfl⟩
  case _ =>
    exact ⟨s.devices, s.timers, _, s.diags, (Host.Outcome.next.inj h).symm.trans (writeRegister_eq true true b s),
      fun _ _ => rfl, fun _ _ _ _ => rfl, fun hc => absurd rfl hc⟩
  case _ =>
    cases p with
    | port p =>
      obtain ⟨ppi, ht⟩ := writeRegister_portAddress p b s
      exact ⟨s.devices, s.timers, ppi, s.diags, (Host.Outcome.next.inj h).symm.trans ht, fun _ _ => rfl,
        fun _ _ _ _ => rfl, fun _ hc => absurd rfl hc⟩
    | unknown t =>
      obtain rfl := Host.Outcome.next.inj h
      exact ⟨s.devices, s.timers, s.ppi, _, rfl, fun _ _ => rfl, fun _ _ _ _ => rfl, fun _ _ _ => rfl⟩
  case _ =>
    cases p with
    | port p =>
      obtain ⟨ppi, ht⟩ := readRegister_portAddress p s
      exact ⟨s.devices, s.timers, ppi, s.diags, (Host.Outcome.next.inj h).symm.trans ht, fun _ _ => rfl,
        fun _ _ _ _ => rfl, fun _ _ hc => absurd rfl hc⟩
    | unknown t =>
      obtain rfl := Host.Outcome.next.inj h
      exact ⟨s.devices, s.timers, s.ppi, _, rfl, fun _ _ => rfl, fun _ _ _ _ => rfl, fun _ _ _ => rfl⟩

/-- Settles O53: no field but the four an instruction can change differs. -/
theorem peripheralFrame : Obligations.PeripheralFrame := by
  intro c d p mode n b i s t hi h
  obtain ⟨devices, timers, ppi, diags, rfl, hdevices, htimers, hppi⟩ := exec_peripheral_fields hi h
  exact ⟨rfl, rfl, fun _ => rfl, rfl, ⟨rfl, rfl⟩, rfl, rfl, rfl, rfl, rfl, hdevices, htimers, hppi⟩

end Sys2Proof.Machine
end

section
/-! SUPPORT. The standalone devices (60_exceptions.md): the timer's count (R421, R422, R424), the parallel interface (R430
to R436), and the interrupt controllers with the host's access to them (R440 to R449, R506). -/

namespace Sys2Proof.Machine

/-! ## The timer's count -/

/-- After `k` ticks a channel started at `n` above 0 has counted down by `k`, and runs while that is above 0. -/
theorem TimerChannel.iterate_tick {n : Word} (hn : n ≠ 0) (mode : Int) (ch : TimerChannel) (k : Nat) :
    (TimerChannel.tick^[k] (ch.configure mode n).start).running = decide (k < n.toNat) ∧
      (TimerChannel.tick^[k] (ch.configure mode n).start).counter.toNat = n.toNat - k := by
  induction k with
  | zero =>
    have hpos : 0 < n.toNat := Nat.pos_of_ne_zero fun h => hn (BitVec.eq_of_toNat_eq h)
    have hstart : (ch.configure mode n).start = { ch.configure mode n with running := true } := if_neg hn
    rw [Function.iterate_zero, id, hstart]
    exact ⟨(decide_eq_true hpos).symm, rfl⟩
  | succ k ih =>
    rw [Function.iterate_succ_apply']
    obtain ⟨hrun, hcount⟩ := ih
    generalize TimerChannel.tick^[k] (ch.configure mode n).start = cur at hrun hcount
    by_cases hk : k < n.toNat
    · have hone : (cur.counter - 1).toNat = n.toNat - (k + 1) := by bv_omega
      have hzero : cur.counter - 1 ≠ 0 ↔ k + 1 < n.toNat := by
        rw [ne_eq, ← BitVec.toNat_inj, hone]
        show ¬n.toNat - (k + 1) = 0 ↔ _
        omega
      have htick : cur.tick = { cur with counter := cur.counter - 1, running := decide (cur.counter - 1 ≠ 0) } :=
        if_pos (by rw [hrun, decide_eq_true hk])
      rw [htick]
      exact ⟨decide_eq_decide.mpr hzero, hone⟩
    · have htick : cur.tick = cur := if_neg (by simp [hrun, hk])
      rw [htick, hrun, hcount]
      exact ⟨decide_eq_decide.mpr (by omega), by omega⟩

/-- Settles O55: the count of `k` ticks, below `n` and from `n` on. -/
theorem timerCountsDown : Obligations.TimerCountsDown := by
  intro mode n ch k hn
  obtain ⟨hrun, hcount⟩ := TimerChannel.iterate_tick hn mode ch k
  refine ⟨fun hk => ⟨hrun.trans (decide_eq_true hk), hcount⟩, fun hk => ⟨hrun.trans (decide_eq_false (by omega)), ?_⟩⟩
  exact BitVec.eq_of_toNat_eq (by rw [hcount, Nat.sub_eq_zero_of_le hk]; rfl)

/-! ## The parallel interface -/

theorem ppiWrite_of_gated {s : State} (hcs : s.ppi.cs = false) (hwr : s.ppi.wr = false) (b : Byte) :
    ppiWrite b s = { s with ppi := Ppi.setSelected { s.ppi with data := b } b } := if_pos ⟨hcs, hwr⟩

theorem ppiRead_of_gated {s : State} (hcs : s.ppi.cs = false) (hrd : s.ppi.rd = false) :
    ppiRead s = { s with ppi := { s.ppi with data := s.ppi.selected } } := if_pos ⟨hcs, hrd⟩

/-- Settles O56: the checks fail to one event each, and the selected register is one of the four. -/
theorem ppiOperations : Obligations.PpiOperations := by
  refine fun s b => ⟨fun a1 a0 h => if_neg h, fun a1 a0 => ?address, fun _ _ _ => rfl, fun h => ?writeOff,
    fun h => ?readOff, fun hcs hwr => ?write, fun hcs hrd => ?read, rfl⟩
  case address => cases a1 <;> cases a0 <;> rfl
  case writeOff => exact if_neg (by rcases h with h | h <;> simp [h])
  case readOff => exact if_neg (by rcases h with h | h <;> simp [h])
  case write =>
    rw [ppiWrite_of_gated hcs hwr]
    refine ⟨?_, ?_, ?_, ?_⟩ <;>
    · intro h1 h0
      simp [Ppi.setSelected, h1, h0]
  case read =>
    rw [ppiRead_of_gated hcs hrd]
    refine ⟨?_, ?_, ?_, ?_⟩ <;>
    · intro h1 h0
      simp [Ppi.selected, h1, h0]

theorem modeField_eq (ctrl : Byte) (pos : Fin 7) : modeField ctrl pos = ctrl.toNat / 2 ^ pos.val % 4 := by
  rw [modeField, BitVec.extractLsb'_toNat, Nat.shiftRight_eq_div_pow]

/-- Settles O57: each port's field, reported and, where it is invalid, appended. -/
theorem portModesReported : Obligations.PortModesReported := by
  refine ⟨Config.modeFields.apart, fun field s m hm => ?_⟩
  have hfield (p : Port) : modeField s.ppi.ctrl (field p) = m p := (modeField_eq _ _).trans (hm p).symm
  simp only [ppiConfigurePorts, hfield]
  rfl

/-! ## The interrupt controllers -/

section
variable (k : Fin 8) (p : Pic)

theorem Pic.mask_valid : p.mask k.val = ({ p with IMR := setBit p.IMR k }, []) := withIrq_valid k Pic.maskIrq p

theorem Pic.unmask_valid : p.unmask k.val = ({ p with IMR := clearBit p.IMR k }, []) := withIrq_valid k Pic.unmaskIrq p

theorem Pic.acknowledge_valid : p.acknowledge k.val =
    ({ p with IRR := clearBit p.IRR k, ISR := setBit p.ISR k, nested := p.nested + 1 }, []) :=
  withIrq_valid k Pic.acknowledgeIrq p

theorem Pic.endOfInterrupt_valid : p.endOfInterrupt k.val =
    ({ p with ISR := clearBit p.ISR k, nested := p.nested - 1 }, []) := withIrq_valid k Pic.endIrq p

end

theorem setBit_getLsbD_comm (b : Byte) (k : Fin 8) (j : Nat) :
    (setBit b k).getLsbD j = (decide (j = k.val) || b.getLsbD j) := by rw [setBit_getLsbD, Bool.or_comm]

theorem clearBit_getLsbD_comm (b : Byte) (k : Fin 8) (j : Nat) :
    (clearBit b k).getLsbD j = (decide (j ≠ k.val) && b.getLsbD j) := by
  rw [clearBit_getLsbD, Bool.and_comm, decide_not]

/-- A requested and masked IRQ, as `check` finds the bits. -/
theorem Pic.mask_request (k : Fin 8) (p : Pic) : ((p.request k.val).1.mask k.val).1 =
    { p with IRR := setBit p.IRR k, IMR := setBit p.IMR k } := by
  rw [Pic.request_valid, Pic.mask_valid]

/-- Settles O59: each operation sets or clears one bit; a masked IRQ is never the first match, and another that is pending
and unmasked leaves one. -/
theorem picMaskAndService : Obligations.PicMaskAndService := by
  refine ⟨fun p k => ⟨⟨_, p.mask_valid k, fun j _ => setBit_getLsbD_comm p.IMR k j⟩,
    ⟨_, p.unmask_valid k, fun j _ => clearBit_getLsbD_comm p.IMR k j⟩,
    ⟨_, _, p.acknowledge_valid k, fun j _ => clearBit_getLsbD_comm p.IRR k j, fun j _ => setBit_getLsbD_comm p.ISR k j⟩,
    ⟨_, p.endOfInterrupt_valid k, fun j _ => clearBit_getLsbD_comm p.ISR k j⟩, ?nested, fun j hj hpend hmask hne => ?other,
    ?masked⟩, fun p k hk r hr => ?invalid⟩
  case nested =>
    rw [Pic.acknowledge_valid, Pic.endOfInterrupt_valid]
    exact add_sub_cancel_right p.nested 1
  case other =>
    have hval : j.val ≠ k.val := fun h => hne (Fin.ext h)
    rw [Pic.mask_request, Option.isSome_iff_ne_none, ne_eq, Pic.check_eq_none_iff]
    intro hnone
    refine hnone j hj ⟨?_, ?_⟩
    · rw [setBit_getLsbD, hpend, Bool.true_or]
    · rw [setBit_getLsbD, hmask, Bool.false_or, decide_eq_false hval]
  case masked =>
    rw [Pic.mask_request, ne_eq, Pic.check_eq_some_iff]
    rintro ⟨before, after, -, ⟨-, hmask⟩, -⟩
    rw [setBit_getLsbD, decide_eq_true rfl, Bool.or_true] at hmask
    cases hmask
  case invalid =>
    simp only [List.mem_cons, List.not_mem_nil, or_false] at hr
    rcases hr with rfl | rfl | rfl | rfl <;> exact withIrq_invalid k hk _ p

/-! ## The routing to master and slave, and the host's answers (R449, R506) -/

section
variable (q : PicPair) (k : Fin 8)

theorem PicPair.masterRequest_valid : q.masterRequest k.val = (q.requestIrq k, []) :=
  withIrq_valid k PicPair.requestIrq q

theorem PicPair.masterAcknowledge_valid : q.masterAcknowledge k.val = (q.acknowledgeIrq k, []) :=
  withIrq_valid k PicPair.acknowledgeIrq q

end

theorem picAnswer_eq (op : PicOp) (c : Pic) : picAnswer op c = if op = .check then .irq c.check else .done := by
  cases op <;> rfl

/-- Settles O60: the two overrides by the flag and the line, every other operation by the controller it names. -/
theorem cascadeDelegation : Obligations.CascadeDelegation := by
  refine ⟨fun q k => ⟨?line2, fun hk => ?request, fun hq => ?acknowledgeSlave, fun hq => ?acknowledgeMaster,
      fun j hj => ⟨withIrq_invalid j hj _ q, withIrq_invalid j hj _ q⟩⟩,
    fun q k => ⟨⟨rfl, rfl⟩, fun op hop => ?master⟩, fun p k => ⟨rfl, rfl, rfl, rfl, rfl, rfl, rfl⟩,
    fun s op => ⟨fun q hq => ⟨?pairMaster, ?pairSlave⟩, fun c hc => ⟨?single, ?noSlave⟩⟩,
    fun s c mode a1 a0 n rd wr cs b => ⟨rfl, rfl, rfl, rfl, rfl, rfl, rfl, rfl, rfl, _, _, _, _, rfl, rfl⟩⟩
  case line2 => exact q.masterRequest_valid 2
  case request =>
    rw [PicPair.masterRequest_valid, PicPair.requestIrq, if_neg hk, Pic.request_valid]
    rfl
  case acknowledgeSlave =>
    rw [PicPair.masterAcknowledge_valid, PicPair.acknowledgeIrq, if_pos hq, Pic.acknowledge_valid]
    rfl
  case acknowledgeMaster =>
    rw [PicPair.masterAcknowledge_valid, PicPair.acknowledgeIrq, if_neg (by simp [hq]), Pic.acknowledge_valid]
    rfl
  case master =>
    simp only [List.mem_cons, List.not_mem_nil, or_false] at hop
    rcases hop with rfl | rfl | rfl | rfl | rfl <;> rfl
  case pairMaster =>
    simp only [hostOp, hq, PicSystem.controller?, PicSystem.apply, picAnswer_eq]
    rfl
  case pairSlave =>
    simp only [hostOp, hq, PicSystem.controller?, PicSystem.apply, picAnswer_eq]
    rfl
  case single =>
    simp only [hostOp, hc, PicSystem.controller?, PicSystem.apply, picAnswer_eq]
    rfl
  case noSlave =>
    simp only [hostOp, hc, PicSystem.controller?]
    rfl

end Sys2Proof.Machine
end
